-- ==== Sys2Proof/Word.lean ====
section
/-! DEFINITION. The words the block and its host exchange: bytes of data memory, 32-bit register words and addresses,
16-bit widened elements (spec 10_state R27, R28, R43; 00_scope R7). -/

namespace Sys2Proof

/-- One byte of data memory (10_state R43: "a byte is 8 bits"). -/
abbrev Byte := BitVec 8

/-- One register word (10_state R28: every register is 32 bits) or accumulator (R21). -/
abbrev Word := BitVec 32

/-- A data-memory byte address (00_scope R7, `ADDR_BITS` = 32). -/
abbrev Addr := BitVec 32

/-- A widened column element (10_state R27: a 16-bit signed two's complement integer). -/
abbrev Elem := BitVec 16

end Sys2Proof
end

