-- ==== Sys2Proof/Config.lean ====
section
/-! DEFINITION. What the platform or the spec leaves open: REG_BASE (00_scope R8) and the free values of
93_implementation_defined U17, U19, U20. The free values have no body: nothing can be proved about which value they
give, so a claim holds whatever it is (log 6, 7, 8). -/

namespace Sys2Proof.Config

/-- `REG_BASE`, the address of the register block in the host's address space: an OPEN parameter (00_scope R8). That it
need not be a multiple of 256 is the model's choice (DESIGN CHOICE, log 12). -/
opaque regBase : Nat

/-- Free byte of draw number `draw` at address `addr` (20_memory R75, R83; 70_reset R333; log 6). -/
opaque freeByte (draw addr : Nat) : Byte

/-- Free word of draw number `draw`: an accumulator after reset (10_state R45; log 8). -/
opaque freeWord (draw slot : Nat) : Word

/-- Free count of draw number `draw`: a sequencer field after reset (10_state R45; log 8). -/
opaque freeNat (draw slot : Nat) : Nat

/-- Free column of draw number `draw`: a column of `COL` after reset (10_state R45; log 8). -/
opaque freeColumn (draw slot : Nat) : List Elem

/-- Size of data memory in bytes (10_state R43: byte addresses `0 .. 2^32-1`). -/
def addrSpace : Nat := 4294967296

/-- Size of the register block in bytes (10_state R43). -/
def regBlockSize : Nat := 256

end Sys2Proof.Config
end

