-- ==== Sys2Proof/Syntax.lean ====
section
/-! DEFINITION. The instructions: one constructor for each row of spec/opcode_table.json (30_encoding R90 to R98,
41_conv_modes R150 to R198, 40_host_commands R121, R122). No raw encoding reaches the machine. -/

namespace Sys2Proof

/-- The port a word is delivered at. Nothing in a word tells the two formats of 30_encoding R91 apart: the register
offset it is written to does. -/
inductive Port where
  /-- Format CMD: the word written to offset 0x00. -/
  | cmd
  /-- Format MODE: the word held in the register at offset 0x08. -/
  | mode
  deriving DecidableEq, Repr

/-- An element width (30_encoding R93: codes 0, 1, 2). -/
inductive Width where
  | b2
  | b4
  | b8
  deriving DecidableEq, Repr

/-- The folding policy (30_encoding R94). -/
inductive FoldPolicy where
  /-- FOLD = 0, threshold-table classification. -/
  | thr
  /-- FOLD = 1, affine multiplier/shift mapping. -/
  | icn
  deriving DecidableEq, Repr

/-- The five constants `(IB, WB_, OB, FOLD, ZWM)` an opcode fixes (41_conv_modes R150). -/
structure Tag where
  ib   : Width
  wb   : Width
  ob   : Width
  fold : FoldPolicy
  /-- ZWM (30_encoding R95): `true` = per-output-channel weight zero points, suffix `.PC`. -/
  zwm  : Bool
  deriving DecidableEq, Repr

/-- One instruction. `z` is MODE[7] (ZWM), the operand-form modifier every MODE word accepts with both values. The
ignored bits 31:4 of a CMD word and the unstored bits 31:8 of a MODE word have no effect and are not operands (log 19).
The three RSVD.WIDTH rows overlap; a word belongs to the first of IB3, WB3, OB3 that matches, and the constructor
carries the word's other fields (log 16). -/
inductive Instr where
  /-- `CONV.I2.W2.O2.THR`, R151. -/
  | convI2W2O2Thr (z : Bool)
  /-- `CONV.I4.W2.O2.THR`, R152. -/
  | convI4W2O2Thr (z : Bool)
  /-- `CONV.I8.W2.O2.THR`, R153. -/
  | convI8W2O2Thr (z : Bool)
  /-- `CONV.I2.W4.O2.THR`, R154. -/
  | convI2W4O2Thr (z : Bool)
  /-- `CONV.I4.W4.O2.THR`, R155. -/
  | convI4W4O2Thr (z : Bool)
  /-- `CONV.I8.W4.O2.THR`, R156. -/
  | convI8W4O2Thr (z : Bool)
  /-- `CONV.I2.W8.O2.THR`, R157. -/
  | convI2W8O2Thr (z : Bool)
  /-- `CONV.I4.W8.O2.THR`, R158. -/
  | convI4W8O2Thr (z : Bool)
  /-- `CONV.I8.W8.O2.THR`, R159. -/
  | convI8W8O2Thr (z : Bool)
  /-- `CONV.I2.W2.O4.THR`, R160. -/
  | convI2W2O4Thr (z : Bool)
  /-- `CONV.I4.W2.O4.THR`, R161. -/
  | convI4W2O4Thr (z : Bool)
  /-- `CONV.I8.W2.O4.THR`, R162. -/
  | convI8W2O4Thr (z : Bool)
  /-- `CONV.I2.W4.O4.THR`, R163. -/
  | convI2W4O4Thr (z : Bool)
  /-- `CONV.I4.W4.O4.THR`, R164. -/
  | convI4W4O4Thr (z : Bool)
  /-- `CONV.I8.W4.O4.THR`, R165. -/
  | convI8W4O4Thr (z : Bool)
  /-- `CONV.I2.W8.O4.THR`, R166. -/
  | convI2W8O4Thr (z : Bool)
  /-- `CONV.I4.W8.O4.THR`, R167. -/
  | convI4W8O4Thr (z : Bool)
  /-- `CONV.I8.W8.O4.THR`, R168. -/
  | convI8W8O4Thr (z : Bool)
  /-- `CONV.I2.W2.O2.ICN`, R169. -/
  | convI2W2O2Icn (z : Bool)
  /-- `CONV.I4.W2.O2.ICN`, R170. -/
  | convI4W2O2Icn (z : Bool)
  /-- `CONV.I8.W2.O2.ICN`, R171. -/
  | convI8W2O2Icn (z : Bool)
  /-- `CONV.I2.W4.O2.ICN`, R172. -/
  | convI2W4O2Icn (z : Bool)
  /-- `CONV.I4.W4.O2.ICN`, R173. -/
  | convI4W4O2Icn (z : Bool)
  /-- `CONV.I8.W4.O2.ICN`, R174. -/
  | convI8W4O2Icn (z : Bool)
  /-- `CONV.I2.W8.O2.ICN`, R175. -/
  | convI2W8O2Icn (z : Bool)
  /-- `CONV.I4.W8.O2.ICN`, R176. -/
  | convI4W8O2Icn (z : Bool)
  /-- `CONV.I8.W8.O2.ICN`, R177. -/
  | convI8W8O2Icn (z : Bool)
  /-- `CONV.I2.W2.O4.ICN`, R178. -/
  | convI2W2O4Icn (z : Bool)
  /-- `CONV.I4.W2.O4.ICN`, R179. -/
  | convI4W2O4Icn (z : Bool)
  /-- `CONV.I8.W2.O4.ICN`, R180. -/
  | convI8W2O4Icn (z : Bool)
  /-- `CONV.I2.W4.O4.ICN`, R181. -/
  | convI2W4O4Icn (z : Bool)
  /-- `CONV.I4.W4.O4.ICN`, R182. -/
  | convI4W4O4Icn (z : Bool)
  /-- `CONV.I8.W4.O4.ICN`, R183. -/
  | convI8W4O4Icn (z : Bool)
  /-- `CONV.I2.W8.O4.ICN`, R184. -/
  | convI2W8O4Icn (z : Bool)
  /-- `CONV.I4.W8.O4.ICN`, R185. -/
  | convI4W8O4Icn (z : Bool)
  /-- `CONV.I8.W8.O4.ICN`, R186. -/
  | convI8W8O4Icn (z : Bool)
  /-- `CONV.I2.W2.O8.ICN`, R187. -/
  | convI2W2O8Icn (z : Bool)
  /-- `CONV.I4.W2.O8.ICN`, R188. -/
  | convI4W2O8Icn (z : Bool)
  /-- `CONV.I8.W2.O8.ICN`, R189. -/
  | convI8W2O8Icn (z : Bool)
  /-- `CONV.I2.W4.O8.ICN`, R190. -/
  | convI2W4O8Icn (z : Bool)
  /-- `CONV.I4.W4.O8.ICN`, R191. -/
  | convI4W4O8Icn (z : Bool)
  /-- `CONV.I8.W4.O8.ICN`, R192. -/
  | convI8W4O8Icn (z : Bool)
  /-- `CONV.I2.W8.O8.ICN`, R193. -/
  | convI2W8O8Icn (z : Bool)
  /-- `CONV.I4.W8.O8.ICN`, R194. -/
  | convI4W8O8Icn (z : Bool)
  /-- `CONV.I8.W8.O8.ICN`, R195. -/
  | convI8W8O8Icn (z : Bool)
  /-- `RSVD.THR.O8.20`, R196. -/
  | rsvdThrO8x20 (z : Bool)
  /-- `RSVD.THR.O8.21`, R196. -/
  | rsvdThrO8x21 (z : Bool)
  /-- `RSVD.THR.O8.22`, R196. -/
  | rsvdThrO8x22 (z : Bool)
  /-- `RSVD.THR.O8.24`, R196. -/
  | rsvdThrO8x24 (z : Bool)
  /-- `RSVD.THR.O8.25`, R196. -/
  | rsvdThrO8x25 (z : Bool)
  /-- `RSVD.THR.O8.26`, R196. -/
  | rsvdThrO8x26 (z : Bool)
  /-- `RSVD.THR.O8.28`, R196. -/
  | rsvdThrO8x28 (z : Bool)
  /-- `RSVD.THR.O8.29`, R196. -/
  | rsvdThrO8x29 (z : Bool)
  /-- `RSVD.THR.O8.2A`, R196. -/
  | rsvdThrO8x2A (z : Bool)
  /-- `RSVD.WIDTH.IB3`, R197. -/
  | rsvdWidthIb3 (z fold : Bool) (ob wb : BitVec 2)
  /-- `RSVD.WIDTH.WB3`, R197. -/
  | rsvdWidthWb3 (z fold : Bool) (ob ib : BitVec 2)
  /-- `RSVD.WIDTH.OB3`, R197. -/
  | rsvdWidthOb3 (z fold : Bool) (wb ib : BitVec 2)
  /-- `START`, R122. -/
  | start
  /-- `CMD.NOP0`, R121. -/
  | cmdNop0
  /-- `CMD.RSVD2`, R121. -/
  | cmdRsvd2
  /-- `CMD.RSVD3`, R121. -/
  | cmdRsvd3
  /-- `CMD.RSVD4`, R121. -/
  | cmdRsvd4
  /-- `CMD.RSVD5`, R121. -/
  | cmdRsvd5
  /-- `CMD.RSVD6`, R121. -/
  | cmdRsvd6
  /-- `CMD.RSVD7`, R121. -/
  | cmdRsvd7
  /-- `CMD.RSVD8`, R121. -/
  | cmdRsvd8
  /-- `CMD.RSVD9`, R121. -/
  | cmdRsvd9
  /-- `CMD.RSVD10`, R121. -/
  | cmdRsvd10
  /-- `CMD.RSVD11`, R121. -/
  | cmdRsvd11
  /-- `CMD.RSVD12`, R121. -/
  | cmdRsvd12
  /-- `CMD.RSVD13`, R121. -/
  | cmdRsvd13
  /-- `CMD.RSVD14`, R121. -/
  | cmdRsvd14
  /-- `CMD.RSVD15`, R121. -/
  | cmdRsvd15
  deriving DecidableEq, Repr

end Sys2Proof
end

