-- ==== Sys2Proof/WellFormed.lean ====
section
/-! DEFINITION. Which instruction terms some word encodes: the reserved-width rows are disjoint by their priority
(41_conv_modes R197; log 16), so a term that a word of an earlier row would take is ill-formed. -/

namespace Sys2Proof

/-- Well-formedness of an instruction term: its encoding belongs to its own row. Width code 3 in an earlier field
would make the word another row's. -/
def Instr.wf (i : Instr) : Bool :=
  match i with
  | .convI2W2O2Thr _ => true
  | .convI4W2O2Thr _ => true
  | .convI8W2O2Thr _ => true
  | .convI2W4O2Thr _ => true
  | .convI4W4O2Thr _ => true
  | .convI8W4O2Thr _ => true
  | .convI2W8O2Thr _ => true
  | .convI4W8O2Thr _ => true
  | .convI8W8O2Thr _ => true
  | .convI2W2O4Thr _ => true
  | .convI4W2O4Thr _ => true
  | .convI8W2O4Thr _ => true
  | .convI2W4O4Thr _ => true
  | .convI4W4O4Thr _ => true
  | .convI8W4O4Thr _ => true
  | .convI2W8O4Thr _ => true
  | .convI4W8O4Thr _ => true
  | .convI8W8O4Thr _ => true
  | .convI2W2O2Icn _ => true
  | .convI4W2O2Icn _ => true
  | .convI8W2O2Icn _ => true
  | .convI2W4O2Icn _ => true
  | .convI4W4O2Icn _ => true
  | .convI8W4O2Icn _ => true
  | .convI2W8O2Icn _ => true
  | .convI4W8O2Icn _ => true
  | .convI8W8O2Icn _ => true
  | .convI2W2O4Icn _ => true
  | .convI4W2O4Icn _ => true
  | .convI8W2O4Icn _ => true
  | .convI2W4O4Icn _ => true
  | .convI4W4O4Icn _ => true
  | .convI8W4O4Icn _ => true
  | .convI2W8O4Icn _ => true
  | .convI4W8O4Icn _ => true
  | .convI8W8O4Icn _ => true
  | .convI2W2O8Icn _ => true
  | .convI4W2O8Icn _ => true
  | .convI8W2O8Icn _ => true
  | .convI2W4O8Icn _ => true
  | .convI4W4O8Icn _ => true
  | .convI8W4O8Icn _ => true
  | .convI2W8O8Icn _ => true
  | .convI4W8O8Icn _ => true
  | .convI8W8O8Icn _ => true
  | .rsvdThrO8x20 _ => true
  | .rsvdThrO8x21 _ => true
  | .rsvdThrO8x22 _ => true
  | .rsvdThrO8x24 _ => true
  | .rsvdThrO8x25 _ => true
  | .rsvdThrO8x26 _ => true
  | .rsvdThrO8x28 _ => true
  | .rsvdThrO8x29 _ => true
  | .rsvdThrO8x2A _ => true
  | .rsvdWidthIb3 _ _ _ _ => true
  | .rsvdWidthWb3 _ _ _ ib => ib != 3#2
  | .rsvdWidthOb3 _ _ wb ib => wb != 3#2 && ib != 3#2
  | .start => true
  | .cmdNop0 => true
  | .cmdRsvd2 => true
  | .cmdRsvd3 => true
  | .cmdRsvd4 => true
  | .cmdRsvd5 => true
  | .cmdRsvd6 => true
  | .cmdRsvd7 => true
  | .cmdRsvd8 => true
  | .cmdRsvd9 => true
  | .cmdRsvd10 => true
  | .cmdRsvd11 => true
  | .cmdRsvd12 => true
  | .cmdRsvd13 => true
  | .cmdRsvd14 => true
  | .cmdRsvd15 => true

end Sys2Proof
end

