-- ==== Sys2Proof/Decode.lean ====
section
/-! DEFINITION. Decoding a word delivered at a port (30_encoding R91 to R99, R104) and the encoder beside it, written
from the opcode map of R96. Every word of either format decodes to exactly one row; what is refused, by name, is a
run of bytes that is not one 32-bit word. -/

namespace Sys2Proof

/-! ## Fields of the MODE word -/

/-- IB[1:0] (30_encoding R91). -/
def modeIb (w : Word) : BitVec 2 := w.extractLsb' 0 2

/-- WB[3:2]. -/
def modeWb (w : Word) : BitVec 2 := w.extractLsb' 2 2

/-- OB[5:4]. -/
def modeOb (w : Word) : BitVec 2 := w.extractLsb' 4 2

/-- FOLD[6]. -/
def modeFold (w : Word) : Bool := w.getLsbD 6

/-- ZWM[7]. -/
def modeZwm (w : Word) : Bool := w.getLsbD 7

/-- CMD.OP[3:0] (30_encoding R91). -/
def cmdOp (w : Word) : BitVec 4 := w.extractLsb' 0 4

/-- The width a code names: `bits(0) = 2`, `bits(1) = 4`, `bits(2) = 8`, code 3 is reserved (30_encoding R93). -/
def Width.ofCode (c : BitVec 2) : Option Width :=
  if c = 0#2 then some .b2
  else if c = 1#2 then some .b4
  else if c = 2#2 then some .b8
  else none

/-- The element width in bits (30_encoding R93). -/
def Width.bits (w : Width) : Nat :=
  match w with
  | .b2 => 2
  | .b4 => 4
  | .b8 => 8

/-- Elements per byte, `epb = 8 div bits`: 4, 2, 1 (30_encoding R93). -/
def Width.epb (w : Width) : Nat := 8 / w.bits

/-- The policy of the FOLD bit (30_encoding R94). -/
def FoldPolicy.ofBit (b : Bool) : FoldPolicy := if b then .icn else .thr

/-! ## The decode of R92 -/

/-- Why a MODE word is reserved (30_encoding R92, R97). -/
inductive ReservedReason where
  /-- Some width code is 3 (R97 (a)). -/
  | widthCode
  /-- FOLD = THR with 8-bit output (R97 (b)). -/
  | thrOut8
  deriving DecidableEq, Repr

/-- What MODE decodes to (30_encoding R92). -/
inductive ModeDecode where
  | legal (t : Tag)
  | reserved (r : ReservedReason)
  deriving DecidableEq, Repr

/-- Decoding MODE, total, in the order of 30_encoding R92: width codes first, then THR with 8-bit output. -/
def modeDecode (w : Word) : ModeDecode :=
  match Width.ofCode (modeIb w), Width.ofCode (modeWb w), Width.ofCode (modeOb w) with
  | some ib, some wb, some ob =>
    if FoldPolicy.ofBit (modeFold w) = .thr ∧ ob = .b8 then .reserved .thrOut8
    else .legal ⟨ib, wb, ob, FoldPolicy.ofBit (modeFold w), modeZwm w⟩
  | _, _, _ => .reserved .widthCode

/-! ## The opcode map -/

/-- The row of the opcode map (30_encoding R96, R97 (b)) for three legal width codes, a policy and ZWM. -/
def modeRow (f : FoldPolicy) (ob wb ib : Width) (z : Bool) : Instr :=
  match f, ob, wb, ib with
  | .thr, .b2, .b2, .b2 => .convI2W2O2Thr z
  | .thr, .b2, .b2, .b4 => .convI4W2O2Thr z
  | .thr, .b2, .b2, .b8 => .convI8W2O2Thr z
  | .thr, .b2, .b4, .b2 => .convI2W4O2Thr z
  | .thr, .b2, .b4, .b4 => .convI4W4O2Thr z
  | .thr, .b2, .b4, .b8 => .convI8W4O2Thr z
  | .thr, .b2, .b8, .b2 => .convI2W8O2Thr z
  | .thr, .b2, .b8, .b4 => .convI4W8O2Thr z
  | .thr, .b2, .b8, .b8 => .convI8W8O2Thr z
  | .thr, .b4, .b2, .b2 => .convI2W2O4Thr z
  | .thr, .b4, .b2, .b4 => .convI4W2O4Thr z
  | .thr, .b4, .b2, .b8 => .convI8W2O4Thr z
  | .thr, .b4, .b4, .b2 => .convI2W4O4Thr z
  | .thr, .b4, .b4, .b4 => .convI4W4O4Thr z
  | .thr, .b4, .b4, .b8 => .convI8W4O4Thr z
  | .thr, .b4, .b8, .b2 => .convI2W8O4Thr z
  | .thr, .b4, .b8, .b4 => .convI4W8O4Thr z
  | .thr, .b4, .b8, .b8 => .convI8W8O4Thr z
  | .icn, .b2, .b2, .b2 => .convI2W2O2Icn z
  | .icn, .b2, .b2, .b4 => .convI4W2O2Icn z
  | .icn, .b2, .b2, .b8 => .convI8W2O2Icn z
  | .icn, .b2, .b4, .b2 => .convI2W4O2Icn z
  | .icn, .b2, .b4, .b4 => .convI4W4O2Icn z
  | .icn, .b2, .b4, .b8 => .convI8W4O2Icn z
  | .icn, .b2, .b8, .b2 => .convI2W8O2Icn z
  | .icn, .b2, .b8, .b4 => .convI4W8O2Icn z
  | .icn, .b2, .b8, .b8 => .convI8W8O2Icn z
  | .icn, .b4, .b2, .b2 => .convI2W2O4Icn z
  | .icn, .b4, .b2, .b4 => .convI4W2O4Icn z
  | .icn, .b4, .b2, .b8 => .convI8W2O4Icn z
  | .icn, .b4, .b4, .b2 => .convI2W4O4Icn z
  | .icn, .b4, .b4, .b4 => .convI4W4O4Icn z
  | .icn, .b4, .b4, .b8 => .convI8W4O4Icn z
  | .icn, .b4, .b8, .b2 => .convI2W8O4Icn z
  | .icn, .b4, .b8, .b4 => .convI4W8O4Icn z
  | .icn, .b4, .b8, .b8 => .convI8W8O4Icn z
  | .icn, .b8, .b2, .b2 => .convI2W2O8Icn z
  | .icn, .b8, .b2, .b4 => .convI4W2O8Icn z
  | .icn, .b8, .b2, .b8 => .convI8W2O8Icn z
  | .icn, .b8, .b4, .b2 => .convI2W4O8Icn z
  | .icn, .b8, .b4, .b4 => .convI4W4O8Icn z
  | .icn, .b8, .b4, .b8 => .convI8W4O8Icn z
  | .icn, .b8, .b8, .b2 => .convI2W8O8Icn z
  | .icn, .b8, .b8, .b4 => .convI4W8O8Icn z
  | .icn, .b8, .b8, .b8 => .convI8W8O8Icn z
  | .thr, .b8, .b2, .b2 => .rsvdThrO8x20 z
  | .thr, .b8, .b2, .b4 => .rsvdThrO8x21 z
  | .thr, .b8, .b2, .b8 => .rsvdThrO8x22 z
  | .thr, .b8, .b4, .b2 => .rsvdThrO8x24 z
  | .thr, .b8, .b4, .b4 => .rsvdThrO8x25 z
  | .thr, .b8, .b4, .b8 => .rsvdThrO8x26 z
  | .thr, .b8, .b8, .b2 => .rsvdThrO8x28 z
  | .thr, .b8, .b8, .b4 => .rsvdThrO8x29 z
  | .thr, .b8, .b8, .b8 => .rsvdThrO8x2A z

/-- The instruction a word at the MODE port names (30_encoding R92, R96; 41_conv_modes R196, R197). -/
def decodeModeWord (w : Word) : Instr :=
  match Width.ofCode (modeIb w) with
  | none => .rsvdWidthIb3 (modeZwm w) (modeFold w) (modeOb w) (modeWb w)
  | some ib =>
    match Width.ofCode (modeWb w) with
    | none => .rsvdWidthWb3 (modeZwm w) (modeFold w) (modeOb w) (modeIb w)
    | some wb =>
      match Width.ofCode (modeOb w) with
      | none => .rsvdWidthOb3 (modeZwm w) (modeFold w) (modeWb w) (modeIb w)
      | some ob => modeRow (FoldPolicy.ofBit (modeFold w)) ob wb ib (modeZwm w)

/-- The command a word written to CMD names: OP alone decides (30_encoding R98, R104). -/
def decodeCmdWord (w : Word) : Instr :=
  match (cmdOp w).toNat with
  | 0 => .cmdNop0
  | 1 => .start
  | 2 => .cmdRsvd2
  | 3 => .cmdRsvd3
  | 4 => .cmdRsvd4
  | 5 => .cmdRsvd5
  | 6 => .cmdRsvd6
  | 7 => .cmdRsvd7
  | 8 => .cmdRsvd8
  | 9 => .cmdRsvd9
  | 10 => .cmdRsvd10
  | 11 => .cmdRsvd11
  | 12 => .cmdRsvd12
  | 13 => .cmdRsvd13
  | 14 => .cmdRsvd14
  | _ => .cmdRsvd15

/-- The instruction a word delivered at a port names (30_encoding R91, R104). Total: no word is refused. -/
def decode (p : Port) (w : Word) : Instr :=
  match p with
  | .cmd  => decodeCmdWord w
  | .mode => decodeModeWord w

/-- Why a run of bytes is no instruction word. -/
inductive DecodeError where
  /-- Not four bytes: both formats are 32 bits, "fixed length" (30_encoding R91). -/
  | notOneWord
  deriving DecidableEq, Repr

/-- A word from its four bytes, the one at the lowest address least significant. DESIGN CHOICE, for the probe of the
opcode table only: the spec has no instruction fetch and so no fetch byte order (20_memory R62; log 23). -/
def wordOfBytes (b0 b1 b2 b3 : Byte) : Word := b3 ++ b2 ++ b1 ++ b0

/-- The four bytes of a word, the least significant first: the order of `MEM32` in data memory (20_memory R61; 30_encoding
R102), and of the probe's layout (DESIGN CHOICE, log 23). -/
def bytesOfWord (w : Word) : List Byte :=
  [w.extractLsb' 0 8, w.extractLsb' 8 8, w.extractLsb' 16 8, w.extractLsb' 24 8]

/-- Decoding bytes, total: exactly four bytes are one word, anything else is refused by name. -/
def decodeBytes (p : Port) (bytes : List Byte) : Except DecodeError Instr :=
  match bytes with
  | [b0, b1, b2, b3] => .ok (decode p (wordOfBytes b0 b1 b2 b3))
  | _ => .error .notOneWord

/-! ## What an instruction stands for -/

/-- The five constants of a convolution's opcode (41_conv_modes R151 to R195), `none` for every other row. -/
def Instr.tag? (i : Instr) : Option Tag :=
  match i with
  | .convI2W2O2Thr z => some ⟨.b2, .b2, .b2, .thr, z⟩
  | .convI4W2O2Thr z => some ⟨.b4, .b2, .b2, .thr, z⟩
  | .convI8W2O2Thr z => some ⟨.b8, .b2, .b2, .thr, z⟩
  | .convI2W4O2Thr z => some ⟨.b2, .b4, .b2, .thr, z⟩
  | .convI4W4O2Thr z => some ⟨.b4, .b4, .b2, .thr, z⟩
  | .convI8W4O2Thr z => some ⟨.b8, .b4, .b2, .thr, z⟩
  | .convI2W8O2Thr z => some ⟨.b2, .b8, .b2, .thr, z⟩
  | .convI4W8O2Thr z => some ⟨.b4, .b8, .b2, .thr, z⟩
  | .convI8W8O2Thr z => some ⟨.b8, .b8, .b2, .thr, z⟩
  | .convI2W2O4Thr z => some ⟨.b2, .b2, .b4, .thr, z⟩
  | .convI4W2O4Thr z => some ⟨.b4, .b2, .b4, .thr, z⟩
  | .convI8W2O4Thr z => some ⟨.b8, .b2, .b4, .thr, z⟩
  | .convI2W4O4Thr z => some ⟨.b2, .b4, .b4, .thr, z⟩
  | .convI4W4O4Thr z => some ⟨.b4, .b4, .b4, .thr, z⟩
  | .convI8W4O4Thr z => some ⟨.b8, .b4, .b4, .thr, z⟩
  | .convI2W8O4Thr z => some ⟨.b2, .b8, .b4, .thr, z⟩
  | .convI4W8O4Thr z => some ⟨.b4, .b8, .b4, .thr, z⟩
  | .convI8W8O4Thr z => some ⟨.b8, .b8, .b4, .thr, z⟩
  | .convI2W2O2Icn z => some ⟨.b2, .b2, .b2, .icn, z⟩
  | .convI4W2O2Icn z => some ⟨.b4, .b2, .b2, .icn, z⟩
  | .convI8W2O2Icn z => some ⟨.b8, .b2, .b2, .icn, z⟩
  | .convI2W4O2Icn z => some ⟨.b2, .b4, .b2, .icn, z⟩
  | .convI4W4O2Icn z => some ⟨.b4, .b4, .b2, .icn, z⟩
  | .convI8W4O2Icn z => some ⟨.b8, .b4, .b2, .icn, z⟩
  | .convI2W8O2Icn z => some ⟨.b2, .b8, .b2, .icn, z⟩
  | .convI4W8O2Icn z => some ⟨.b4, .b8, .b2, .icn, z⟩
  | .convI8W8O2Icn z => some ⟨.b8, .b8, .b2, .icn, z⟩
  | .convI2W2O4Icn z => some ⟨.b2, .b2, .b4, .icn, z⟩
  | .convI4W2O4Icn z => some ⟨.b4, .b2, .b4, .icn, z⟩
  | .convI8W2O4Icn z => some ⟨.b8, .b2, .b4, .icn, z⟩
  | .convI2W4O4Icn z => some ⟨.b2, .b4, .b4, .icn, z⟩
  | .convI4W4O4Icn z => some ⟨.b4, .b4, .b4, .icn, z⟩
  | .convI8W4O4Icn z => some ⟨.b8, .b4, .b4, .icn, z⟩
  | .convI2W8O4Icn z => some ⟨.b2, .b8, .b4, .icn, z⟩
  | .convI4W8O4Icn z => some ⟨.b4, .b8, .b4, .icn, z⟩
  | .convI8W8O4Icn z => some ⟨.b8, .b8, .b4, .icn, z⟩
  | .convI2W2O8Icn z => some ⟨.b2, .b2, .b8, .icn, z⟩
  | .convI4W2O8Icn z => some ⟨.b4, .b2, .b8, .icn, z⟩
  | .convI8W2O8Icn z => some ⟨.b8, .b2, .b8, .icn, z⟩
  | .convI2W4O8Icn z => some ⟨.b2, .b4, .b8, .icn, z⟩
  | .convI4W4O8Icn z => some ⟨.b4, .b4, .b8, .icn, z⟩
  | .convI8W4O8Icn z => some ⟨.b8, .b4, .b8, .icn, z⟩
  | .convI2W8O8Icn z => some ⟨.b2, .b8, .b8, .icn, z⟩
  | .convI4W8O8Icn z => some ⟨.b4, .b8, .b8, .icn, z⟩
  | .convI8W8O8Icn z => some ⟨.b8, .b8, .b8, .icn, z⟩
  | .rsvdThrO8x20 _ => none
  | .rsvdThrO8x21 _ => none
  | .rsvdThrO8x22 _ => none
  | .rsvdThrO8x24 _ => none
  | .rsvdThrO8x25 _ => none
  | .rsvdThrO8x26 _ => none
  | .rsvdThrO8x28 _ => none
  | .rsvdThrO8x29 _ => none
  | .rsvdThrO8x2A _ => none
  | .rsvdWidthIb3 _ _ _ _ => none
  | .rsvdWidthWb3 _ _ _ _ => none
  | .rsvdWidthOb3 _ _ _ _ => none
  | .start => none
  | .cmdNop0 => none
  | .cmdRsvd2 => none
  | .cmdRsvd3 => none
  | .cmdRsvd4 => none
  | .cmdRsvd5 => none
  | .cmdRsvd6 => none
  | .cmdRsvd7 => none
  | .cmdRsvd8 => none
  | .cmdRsvd9 => none
  | .cmdRsvd10 => none
  | .cmdRsvd11 => none
  | .cmdRsvd12 => none
  | .cmdRsvd13 => none
  | .cmdRsvd14 => none
  | .cmdRsvd15 => none

/-! ## The encoder -/

/-- A MODE word from MODE[6:0] and ZWM: bits 31:8 are 0 (30_encoding R91). -/
def modeWord (z : Bool) (opcode : BitVec 7) : Word :=
  (0#24 ++ (BitVec.ofBool z ++ opcode : BitVec 8) : BitVec 32)

/-- MODE[6:0] from its fields, `fold*64 + obcode*16 + wbcode*4 + ibcode` (30_encoding R96). -/
def modeOpcode (fold : Bool) (ob wb ib : BitVec 2) : BitVec 7 :=
  BitVec.ofBool fold ++ ob ++ wb ++ ib

/-- A CMD word from OP: the ignored bits 31:4 are 0 (30_encoding R91). -/
def cmdWord (op : BitVec 4) : Word := (0#28 ++ op : BitVec 32)

/-- The port and the word of an instruction, MODE[6:0] and OP as the opcode map lists them (30_encoding R96 to R98). -/
def encode (i : Instr) : Port × Word :=
  match i with
  | .convI2W2O2Thr z => (.mode, modeWord z 0x00#7)
  | .convI4W2O2Thr z => (.mode, modeWord z 0x01#7)
  | .convI8W2O2Thr z => (.mode, modeWord z 0x02#7)
  | .convI2W4O2Thr z => (.mode, modeWord z 0x04#7)
  | .convI4W4O2Thr z => (.mode, modeWord z 0x05#7)
  | .convI8W4O2Thr z => (.mode, modeWord z 0x06#7)
  | .convI2W8O2Thr z => (.mode, modeWord z 0x08#7)
  | .convI4W8O2Thr z => (.mode, modeWord z 0x09#7)
  | .convI8W8O2Thr z => (.mode, modeWord z 0x0A#7)
  | .convI2W2O4Thr z => (.mode, modeWord z 0x10#7)
  | .convI4W2O4Thr z => (.mode, modeWord z 0x11#7)
  | .convI8W2O4Thr z => (.mode, modeWord z 0x12#7)
  | .convI2W4O4Thr z => (.mode, modeWord z 0x14#7)
  | .convI4W4O4Thr z => (.mode, modeWord z 0x15#7)
  | .convI8W4O4Thr z => (.mode, modeWord z 0x16#7)
  | .convI2W8O4Thr z => (.mode, modeWord z 0x18#7)
  | .convI4W8O4Thr z => (.mode, modeWord z 0x19#7)
  | .convI8W8O4Thr z => (.mode, modeWord z 0x1A#7)
  | .convI2W2O2Icn z => (.mode, modeWord z 0x40#7)
  | .convI4W2O2Icn z => (.mode, modeWord z 0x41#7)
  | .convI8W2O2Icn z => (.mode, modeWord z 0x42#7)
  | .convI2W4O2Icn z => (.mode, modeWord z 0x44#7)
  | .convI4W4O2Icn z => (.mode, modeWord z 0x45#7)
  | .convI8W4O2Icn z => (.mode, modeWord z 0x46#7)
  | .convI2W8O2Icn z => (.mode, modeWord z 0x48#7)
  | .convI4W8O2Icn z => (.mode, modeWord z 0x49#7)
  | .convI8W8O2Icn z => (.mode, modeWord z 0x4A#7)
  | .convI2W2O4Icn z => (.mode, modeWord z 0x50#7)
  | .convI4W2O4Icn z => (.mode, modeWord z 0x51#7)
  | .convI8W2O4Icn z => (.mode, modeWord z 0x52#7)
  | .convI2W4O4Icn z => (.mode, modeWord z 0x54#7)
  | .convI4W4O4Icn z => (.mode, modeWord z 0x55#7)
  | .convI8W4O4Icn z => (.mode, modeWord z 0x56#7)
  | .convI2W8O4Icn z => (.mode, modeWord z 0x58#7)
  | .convI4W8O4Icn z => (.mode, modeWord z 0x59#7)
  | .convI8W8O4Icn z => (.mode, modeWord z 0x5A#7)
  | .convI2W2O8Icn z => (.mode, modeWord z 0x60#7)
  | .convI4W2O8Icn z => (.mode, modeWord z 0x61#7)
  | .convI8W2O8Icn z => (.mode, modeWord z 0x62#7)
  | .convI2W4O8Icn z => (.mode, modeWord z 0x64#7)
  | .convI4W4O8Icn z => (.mode, modeWord z 0x65#7)
  | .convI8W4O8Icn z => (.mode, modeWord z 0x66#7)
  | .convI2W8O8Icn z => (.mode, modeWord z 0x68#7)
  | .convI4W8O8Icn z => (.mode, modeWord z 0x69#7)
  | .convI8W8O8Icn z => (.mode, modeWord z 0x6A#7)
  | .rsvdThrO8x20 z => (.mode, modeWord z 0x20#7)
  | .rsvdThrO8x21 z => (.mode, modeWord z 0x21#7)
  | .rsvdThrO8x22 z => (.mode, modeWord z 0x22#7)
  | .rsvdThrO8x24 z => (.mode, modeWord z 0x24#7)
  | .rsvdThrO8x25 z => (.mode, modeWord z 0x25#7)
  | .rsvdThrO8x26 z => (.mode, modeWord z 0x26#7)
  | .rsvdThrO8x28 z => (.mode, modeWord z 0x28#7)
  | .rsvdThrO8x29 z => (.mode, modeWord z 0x29#7)
  | .rsvdThrO8x2A z => (.mode, modeWord z 0x2A#7)
  | .rsvdWidthIb3 z fold ob wb => (.mode, modeWord z (modeOpcode fold ob wb 3#2))
  | .rsvdWidthWb3 z fold ob ib => (.mode, modeWord z (modeOpcode fold ob 3#2 ib))
  | .rsvdWidthOb3 z fold wb ib => (.mode, modeWord z (modeOpcode fold 3#2 wb ib))
  | .start => (.cmd, cmdWord 1#4)
  | .cmdNop0 => (.cmd, cmdWord 0#4)
  | .cmdRsvd2 => (.cmd, cmdWord 2#4)
  | .cmdRsvd3 => (.cmd, cmdWord 3#4)
  | .cmdRsvd4 => (.cmd, cmdWord 4#4)
  | .cmdRsvd5 => (.cmd, cmdWord 5#4)
  | .cmdRsvd6 => (.cmd, cmdWord 6#4)
  | .cmdRsvd7 => (.cmd, cmdWord 7#4)
  | .cmdRsvd8 => (.cmd, cmdWord 8#4)
  | .cmdRsvd9 => (.cmd, cmdWord 9#4)
  | .cmdRsvd10 => (.cmd, cmdWord 10#4)
  | .cmdRsvd11 => (.cmd, cmdWord 11#4)
  | .cmdRsvd12 => (.cmd, cmdWord 12#4)
  | .cmdRsvd13 => (.cmd, cmdWord 13#4)
  | .cmdRsvd14 => (.cmd, cmdWord 14#4)
  | .cmdRsvd15 => (.cmd, cmdWord 15#4)

/-! ## The host's probe of the opcode table -/

/-- The port a table word is taken to be written at when nothing but the word is given. The table's two formats share
the values 0 to 15 and no bit tells them apart, so this is a convention of the probe only (log 5): a value that is the
match of one row alone is that row's; of two rows with one value the one with an effect is taken, START before a
convolution, and a convolution or a reserved mode before a no-operation. -/
def tablePort (w : Word) : Port := if w.toNat ∈ [1, 7, 11, 13, 14, 15] then .cmd else .mode

/-- The word of `nbits` bits numbered as the opcode table numbers them; every bit above is 0. -/
def tableWord (nbits w : Nat) : Word := BitVec.ofNat 32 (w % 2 ^ nbits)

/-- The instruction the decoder reads from a table word laid out as bytes. -/
def decodeTableWord (nbits w : Nat) : Option Instr :=
  match decodeBytes (tablePort (tableWord nbits w)) (bytesOfWord (tableWord nbits w)) with
  | .ok i => some i
  | .error _ => none

end Sys2Proof
end

