-- ==== Sys2Proof/Machine/State.lean ====
section
/-! DEFINITION. The state of the machine (10_state R20): the registers, the sequencer, the datapath registers, the
column buffer and data memory, with the model's own fields for the platform, the host's inputs and the free draws; the
reasons a step can stop; and the state after reset (10_state R45). -/

namespace Sys2Proof.Machine

/-- `STATUS.STATE` (10_state R30): five values; 5, 6, 7 are never produced (93 U23). -/
inductive Status where
  /-- 0: no call since reset. -/
  | idle
  /-- 1: a call is in progress. -/
  | busy
  /-- 2: the last call completed. -/
  | done
  /-- 3: the last START was rejected by the size check. -/
  | sizeMismatch
  /-- 4: a START named a reserved configuration; sticky until reset. -/
  | fault
  deriving DecidableEq, Repr

/-- `SEQ.PHASE` (10_state R24): which micro-step is next. -/
inductive Phase where
  | gather
  | dot2
  | dot1
  | finish
  deriving DecidableEq, Repr

/-- The configuration registers (10_state R28): the defined bits of each RW register. Reserved bits are not stored,
"a write to a reserved bit is ignored and the bit reads 0" (R40). -/
structure Regs where
  /-- MODE (0x08): IB[1:0], WB[3:2], OB[5:4], FOLD[6], ZWM[7]. -/
  mode       : BitVec 8
  /-- DIM_IN (0x0C). -/
  dimIn      : BitVec 16
  /-- CH_IN (0x10). -/
  chIn       : BitVec 16
  /-- CH_OUT (0x14). -/
  chOut      : BitVec 16
  /-- KSIZE (0x18). -/
  ksize      : BitVec 8
  /-- PAD (0x1C): TOP[7:0], BOTTOM[15:8], LEFT[23:16], RIGHT[31:24]. -/
  pad        : BitVec 32
  /-- STRIDE (0x20). -/
  stride     : BitVec 8
  /-- ZP (0x24): Z_IN[7:0], Z_W[15:8], Z_OUT[23:16]. -/
  zp         : BitVec 24
  /-- IN_BASE (0x28). -/
  inBase     : Addr
  /-- W_BASE (0x2C). -/
  wBase      : Addr
  /-- BIAS_BASE (0x30). -/
  biasBase   : Addr
  /-- OUT_BASE (0x34). -/
  outBase    : Addr
  /-- QA_BASE (0x38). -/
  qaBase     : Addr
  /-- QB_BASE (0x3C). -/
  qbBase     : Addr
  /-- ZW_BASE (0x40). -/
  zwBase     : Addr
  /-- COLBUF_BASE (0x44). -/
  colbufBase : Addr
  /-- SCRB_BASE (0x48). -/
  scrbBase   : Addr
  deriving DecidableEq, Repr

/-- The sequencer state `SEQ` (10_state R24). -/
structure SeqState where
  phase : Phase
  /-- Number of output positions already gathered, `0 .. N`. -/
  pos   : Nat
  /-- Number of gathered, not yet consumed columns, 0, 1 or 2. -/
  fill  : Nat
  /-- Next output channel within a DOT2 or DOT1 phase, `0 .. CO`. -/
  chi   : Nat
  deriving DecidableEq, Repr

/-- Data memory (10_state R43, 20_memory R60). `cells` lists the bytes that differ from what an unlisted address reads
as; `unspec` lists the addresses whose byte the spec calls unspecified, each with the number of the free draw that
fills it (20_memory R75, 70_reset R333; log 6). -/
structure Memory where
  cells  : List Host.Cell
  unspec : List (Nat × Nat)
  deriving DecidableEq, Repr

/-- What an unlisted address reads as. DESIGN CHOICE, unsafe: the spec gives no contents at power-on (log 1). -/
def Memory.unlistedByte : Byte := 0#8

/-- Addresses strictly rising. -/
def risingKeys {α : Type} (l : List (Nat × α)) : Bool :=
  match l with
  | [] => true
  | [_] => true
  | p :: q :: rest => decide (p.1 < q.1) && risingKeys (q :: rest)

/-- The canonical form of data memory: addresses strictly rising and inside the address space, no entry equal to what
an unlisted address reads as, and no address both known and unspecified. -/
def Memory.wf (m : Memory) : Bool :=
  risingKeys m.cells && risingKeys m.unspec &&
  m.cells.all (fun c => decide (c.1 < Config.addrSpace) && c.2 != Memory.unlistedByte) &&
  m.unspec.all (fun u => decide (u.1 < Config.addrSpace)) &&
  m.cells.all (fun c => m.unspec.all (fun u => u.1 != c.1))

/-- A byte interval `[base, base + size)` (20_memory R76). -/
structure Span where
  base : Nat
  size : Nat
  deriving DecidableEq, Repr

/-- One operation of the host, the model's input alphabet (40_host_commands R120; 20_memory R83; 70_reset R330; log 3).
Register accesses are named by their byte offset from REG_BASE (log 12). -/
inductive HostOp where
  /-- `RD`: read `width` bytes of the register block at `off` (10_state R41). -/
  | rd (off width : Nat)
  /-- `WR`: write `width` bytes of the register block at `off` (10_state R42). -/
  | wr (off width : Nat) (v : Word)
  /-- `CALL`: write the MODE word, have the whole call of 41_conv_modes R150 made, then POLL (30_encoding R103; log 4). -/
  | call (mode : Word)
  /-- `POLL`: read STATUS until it is not BUSY (30_encoding R103; log 4). -/
  | poll
  /-- Read one byte of data memory (10_state R43, 20_memory R83). -/
  | memRd (a : Addr)
  /-- Write one byte of data memory. -/
  | memWr (a : Addr) (v : Byte)
  /-- Assert the reset input (70_reset R330). -/
  | reset
  /-- The host does nothing while the block takes one micro-step (95 program P7; log 3). -/
  | blockTurn
  deriving DecidableEq, Repr

/-- The machine (10_state R20). -/
structure State where
  /-- STATUS.STATE (10_state R30). -/
  status  : Status
  /-- The RW registers MODE to SCRB_BASE (10_state R28). -/
  regs    : Regs
  /-- SEQ (10_state R24). -/
  seq     : SeqState
  /-- ACC[0]: channel c, COL[0] (10_state R21). -/
  acc0    : Word
  /-- ACC[1]: channel c, COL[1]. -/
  acc1    : Word
  /-- ACC[2]: channel c+1, COL[0]. -/
  acc2    : Word
  /-- ACC[3]: channel c+1, COL[1]. -/
  acc3    : Word
  /-- PK[0] (10_state R22). -/
  pk0     : Byte
  /-- PK[1]. -/
  pk1     : Byte
  /-- COL[0] (10_state R27). -/
  col0    : List Elem
  /-- COL[1]. -/
  col1    : List Elem
  /-- Data memory (10_state R43). -/
  mem     : Memory
  /-- The platform's address ranges without storage (20_memory R78). The model's own field; no step changes it (log 9). -/
  holes   : List Span
  /-- The host's next operations. The model's own field: the inputs (log 3). -/
  pending : List HostOp
  /-- The OUT regions of the calls accepted since the host last read a STATUS other than BUSY: until then their bytes
  are unspecified to a host read (20_memory R81 (b); 70_reset R341). The model's own field (log 7). -/
  unseen  : List Span
  /-- The value the host's last read returned. The model's own field (log 11). -/
  rdata   : Word
  /-- Number of free draws made so far. The model's own field (log 6). -/
  draws   : Nat
  deriving DecidableEq, Repr

/-- Why the machine stops with a fault. -/
inductive Fault where
  /-- Raised by a host access to a byte of data memory that no storage backs (20_memory R78: which addresses are backed
  is the platform's). Safe: the model stops where a platform may go on (log 18). -/
  | unbackedAddress
  deriving DecidableEq, Repr

/-- Why the machine has no next state. -/
inductive Refusal where
  /-- Raised by exec's arm of an instruction that has no meaning yet. Safe. -/
  | notModelled (mnemonic : String)
  /-- Raised by a START or a call whose launch premises H1 to H4 or H6 fail: `refuse(OutOfContract)`
  (40_host_commands R126; 93 U1 to U4, U8). Safe: the spec gives the call no behaviour. -/
  | outOfContract
  /-- Raised by a START or a call with a region that storage does not wholly back: `refuse(UnbackedRegion)`
  (20_memory R78; 40_host_commands R126 H5; 93 U5). Safe. -/
  | unbackedRegion
  /-- Raised by a register access that is not an aligned 32-bit access inside the 256-byte block: `refuse(BadRegAccess)`
  (10_state R40; 93 U13). Safe. -/
  | badRegAccess
  /-- Raised by a host write to a byte of a region of the call while BUSY: `refuse(HostWriteDuringCall)`
  (20_memory R83; 93 U16). Safe. -/
  | hostWriteDuringCall
  /-- Raised by the block's turn when STATE is BUSY and MODE decodes Reserved: a state no run reaches, since START never
  accepts such a MODE and no write changes it while BUSY (10_state R34). Safe (log 17). -/
  | busyReservedMode
  deriving DecidableEq, Repr

/-- An outcome of this machine. -/
abbrev Out := Host.Outcome State Fault Refusal

/-- Every RW register at its reset value 0 (10_state R28, R45). -/
def Regs.reset : Regs where
  mode       := 0#8
  dimIn      := 0#16
  chIn       := 0#16
  chOut      := 0#16
  ksize      := 0#8
  pad        := 0#32
  stride     := 0#8
  zp         := 0#24
  inBase     := 0#32
  wBase      := 0#32
  biasBase   := 0#32
  outBase    := 0#32
  qaBase     := 0#32
  qbBase     := 0#32
  zwBase     := 0#32
  colbufBase := 0#32
  scrbBase   := 0#32

/-- The machine right after reset (10_state R45): registers and STATUS as the spec gives them. SEQ, ACC, PK, COL are
"unspecified" there: the values here are a DESIGN CHOICE, unsafe (log 2). The other fields are the model's own
(log 1, 3, 6, 7, 9, 11). -/
def State.reset : State where
  status  := .idle
  regs    := Regs.reset
  seq     := { phase := .gather, pos := 0, fill := 0, chi := 0 }
  acc0    := 0#32
  acc1    := 0#32
  acc2    := 0#32
  acc3    := 0#32
  pk0     := 0#8
  pk1     := 0#8
  col0    := []
  col1    := []
  mem     := { cells := [], unspec := [] }
  holes   := []
  pending := []
  unseen  := []
  rdata   := 0#32
  draws   := 0

end Sys2Proof.Machine
end

