-- ==== Sys2Proof/Machine/Ops.lean ====
section
/-! DEFINITION. The named operations over memory and registers: one read and one write of a byte of data memory, the
little-endian `MemRead` (20_memory R61), the arithmetic helpers of 00_scope R9 and R10, the register file's read and
write (10_state R40 to R42), and the taking and leaving of the abnormal outcomes (60_exceptions R300 to R307,
70_reset R330 to R333). -/

namespace Sys2Proof.Machine

/-! ## Arithmetic helpers (00_scope R9, R10) -/

/-- `s32(v)`: the signed 32-bit value congruent to `v` modulo `2^32` (00_scope R10). -/
def s32 (v : Int) : Int := (v + 2147483648) % 4294967296 - 2147483648

/-- The 32-bit word of a mathematical integer: an accumulator holds `s32(v)` (10_state R21). -/
def word32 (v : Int) : Word := BitVec.ofInt 32 v

/-- `v >>a n`, the arithmetic right shift `floor(v / 2^n)` (00_scope R10). -/
def sra (v : Int) (n : Nat) : Int := v / (2 ^ n : Int)

/-- `v << n` on a mathematical integer, `v * 2^n` (00_scope R10). -/
def shl (v : Int) (n : Nat) : Int := v * (2 ^ n : Int)

/-- `clamp(v, lo, hi) = max(lo, min(hi, v))` (00_scope R9). -/
def clamp (v lo hi : Int) : Int := max lo (min hi v)

/-! ## Lists of address and value in canonical form -/

/-- The value listed at an address, if any. -/
def lookup {α : Type} (l : List (Nat × α)) (a : Nat) : Option α :=
  match l with
  | [] => none
  | p :: rest => if p.1 = a then some p.2 else lookup rest a

/-- The list without an address. -/
def drop {α : Type} (l : List (Nat × α)) (a : Nat) : List (Nat × α) :=
  match l with
  | [] => []
  | p :: rest => if p.1 = a then rest else p :: drop rest a

/-- The list with a value put at an address, at its place in the order. -/
def put {α : Type} (l : List (Nat × α)) (a : Nat) (v : α) : List (Nat × α) :=
  match l with
  | [] => [(a, v)]
  | p :: rest =>
    if a < p.1 then (a, v) :: p :: rest
    else if p.1 = a then (a, v) :: rest
    else p :: put rest a v

/-! ## Bytes of data memory (20_memory R60, R61) -/

/-- The byte at an address: a free draw where the spec calls it unspecified (20_memory R75), else the listed byte, else
what an unlisted address reads as (log 1, 6). -/
def Memory.read (m : Memory) (a : Nat) : Byte :=
  match lookup m.unspec a with
  | some draw => Config.freeByte draw a
  | none => (lookup m.cells a).getD Memory.unlistedByte

/-- Writing a byte: the address is specified from then on ("or the next write by the host", 20_memory R75). Writing what
an unlisted address reads as removes the entry. -/
def Memory.write (m : Memory) (a : Nat) (v : Byte) : Memory :=
  { cells  := if v = Memory.unlistedByte then drop m.cells a else put m.cells a v
    unspec := drop m.unspec a }

/-- Making a byte unspecified: it holds whatever draw `draw` gives (20_memory R75; log 6). -/
def Memory.forget (m : Memory) (draw a : Nat) : Memory :=
  { cells  := drop m.cells a
    unspec := put m.unspec a draw }

/-- An address the block issues, "each taken modulo `2^32`" (20_memory R61). -/
def wrapAddr (a : Nat) : Nat := a % Config.addrSpace

/-- Every byte of `[base, base + size)` unspecified (20_memory R75, 70_reset R333). -/
def Memory.forgetSpan (m : Memory) (draw base size : Nat) : Memory :=
  (List.range size).foldl (fun m' i => m'.forget draw (wrapAddr (base + i))) m

/-- `MemRead(addr, n)`: little-endian, the byte at the lowest address least significant (20_memory R61). -/
def memRead (m : Memory) (addr n : Nat) : Nat :=
  match n with
  | 0 => 0
  | k + 1 => (m.read (wrapAddr addr)).toNat + 256 * memRead m (addr + 1) k

/-- `MemWrite(addr, n, v)`: byte `i` of `v` to address `addr + i`, modulo `2^32` (20_memory R61). -/
def memWrite (m : Memory) (addr n v : Nat) : Memory :=
  match n with
  | 0 => m
  | k + 1 => memWrite (m.write (wrapAddr addr) (BitVec.ofNat 8 v)) (addr + 1) k (v / 256)

/-- `s32(MemRead(addr, 4))` (20_memory R61). -/
def memReadS32 (m : Memory) (addr : Nat) : Int := s32 (memRead m addr 4)

/-- `s16(v)` (00_scope R10). -/
def s16 (v : Int) : Int := (v + 32768) % 65536 - 32768

/-- `s16(MemRead(addr, 2))` (20_memory R61). No operand of this block is a 16-bit quantity in memory but the image of
COLBUF, which a model need not keep (20_memory R74). -/
def memReadS16 (m : Memory) (addr : Nat) : Int := s16 (memRead m addr 2)

/-- `s8(v)` (00_scope R10). -/
def s8 (v : Int) : Int := (v + 128) % 256 - 128

/-- `s8(MemRead(addr, 1))` (20_memory R61). -/
def memReadS8 (m : Memory) (addr : Nat) : Int := s8 (memRead m addr 1)

/-! ## Spans (20_memory R76) -/

/-- Whether an address lies in a span. -/
def Span.has (r : Span) (a : Nat) : Bool := decide (r.base ≤ a) && decide (a < r.base + r.size)

/-- Whether two spans share no byte; an empty span shares none (log 22). -/
def Span.disjoint (r q : Span) : Bool :=
  r.size == 0 || q.size == 0 || decide (r.base + r.size ≤ q.base) || decide (q.base + q.size ≤ r.base)

/-- Whether storage backs every byte of a span (20_memory R78). -/
def Span.backed (r : Span) (holes : List Span) : Bool := holes.all (fun h => r.disjoint h)

/-- Whether storage backs an address. -/
def addrBacked (holes : List Span) (a : Nat) : Bool := holes.all (fun h => !h.has a)

/-! ## The register file (10_state R28, R40 to R42) -/

/-- The absolute host address of a register offset: offsets count from REG_BASE (10_state R28; log 12). -/
def regAddr (off : Nat) : Nat := Config.regBase + off

/-- The offset an absolute host address selects, `none` outside the 256-byte block (10_state R43): the distance from
REG_BASE (R28). The block decodes address bits 7:0 (00_scope R8, 10_state R40), which is the same offset when REG_BASE is
a multiple of 256; for any other REG_BASE the spec leaves the two apart, and following R28 there is the model's choice
(DESIGN CHOICE, log 12). -/
def regOffset (addr : Nat) : Option Nat :=
  if Config.regBase ≤ addr ∧ addr < Config.regBase + Config.regBlockSize then some (addr - Config.regBase) else none

/-- Whether a register access is defined: naturally aligned, 32 bits, inside the block (10_state R40; 93 U13). -/
def regAccessOk (off width : Nat) : Bool :=
  width == 4 && off % 4 == 0 && decide (off < Config.regBlockSize)

/-- The code of STATUS.STATE (10_state R30). -/
def statusCode (st : Status) : Word :=
  match st with
  | .idle => 0#32
  | .busy => 1#32
  | .done => 2#32
  | .sizeMismatch => 3#32
  | .fault => 4#32

/-- `RD(off)` (10_state R41): CMD and reserved offsets read 0, reserved bits read 0. -/
def readReg (s : State) (off : Nat) : Word :=
  match off with
  | 0x04 => statusCode s.status
  | 0x08 => s.regs.mode.setWidth 32
  | 0x0C => s.regs.dimIn.setWidth 32
  | 0x10 => s.regs.chIn.setWidth 32
  | 0x14 => s.regs.chOut.setWidth 32
  | 0x18 => s.regs.ksize.setWidth 32
  | 0x1C => s.regs.pad
  | 0x20 => s.regs.stride.setWidth 32
  | 0x24 => s.regs.zp.setWidth 32
  | 0x28 => s.regs.inBase
  | 0x2C => s.regs.wBase
  | 0x30 => s.regs.biasBase
  | 0x34 => s.regs.outBase
  | 0x38 => s.regs.qaBase
  | 0x3C => s.regs.qbBase
  | 0x40 => s.regs.zwBase
  | 0x44 => s.regs.colbufBase
  | 0x48 => s.regs.scrbBase
  | _ => 0#32

/-- The RW registers after a write of `v` at `off`: the defined fields take the corresponding bits; CMD, STATUS and
reserved offsets store nothing (10_state R40, R42). -/
def Regs.write (r : Regs) (off : Nat) (v : Word) : Regs :=
  match off with
  | 0x08 => { r with mode := v.setWidth 8 }
  | 0x0C => { r with dimIn := v.setWidth 16 }
  | 0x10 => { r with chIn := v.setWidth 16 }
  | 0x14 => { r with chOut := v.setWidth 16 }
  | 0x18 => { r with ksize := v.setWidth 8 }
  | 0x1C => { r with pad := v }
  | 0x20 => { r with stride := v.setWidth 8 }
  | 0x24 => { r with zp := v.setWidth 24 }
  | 0x28 => { r with inBase := v }
  | 0x2C => { r with wBase := v }
  | 0x30 => { r with biasBase := v }
  | 0x34 => { r with outBase := v }
  | 0x38 => { r with qaBase := v }
  | 0x3C => { r with qbBase := v }
  | 0x40 => { r with zwBase := v }
  | 0x44 => { r with colbufBase := v }
  | 0x48 => { r with scrbBase := v }
  | _ => r

/-- `WR(off, v)` but for the command decode of offset 0x00: ignored while BUSY (10_state R34, R42). -/
def writeReg (s : State) (off : Nat) (v : Word) : State :=
  if s.status = .busy then s else { s with regs := s.regs.write off v }

/-! ## Abnormal outcomes: taking one, leaving one (60_exceptions) -/

/-- The two abnormal outcomes of a START (60_exceptions R300, R301). -/
inductive Abnormal where
  | sizeMismatch
  | fault
  deriving DecidableEq, Repr

/-- The STATE an abnormal outcome is reported by. -/
def Abnormal.status (e : Abnormal) : Status :=
  match e with
  | .sizeMismatch => .sizeMismatch
  | .fault => .fault

/-- Taking SIZE_MISMATCH or FAULT: it "changes exactly one piece of state, `STATUS.STATE`"; nothing is saved and control
goes nowhere (60_exceptions R305). -/
def raise (e : Abnormal) (s : State) : State := { s with status := e.status }

/-- Whether a START is acted on in a STATE: not while BUSY (10_state R34), not in FAULT (60_exceptions R306). DONE and
SIZE_MISMATCH need no clearing (R307): there is no return instruction, the next START overwrites STATE. -/
def acceptsStart (st : Status) : Bool :=
  match st with
  | .idle => true
  | .busy => false
  | .done => true
  | .sizeMismatch => true
  | .fault => false

/-- A sequencer phase from a free count (log 8). -/
def phaseOfNat (n : Nat) : Phase :=
  match n with
  | 0 => .gather
  | 1 => .dot2
  | 2 => .dot1
  | _ => .finish

/-- The reset input but for its effect on memory: registers 0, STATUS IDLE, from any STATE; SEQ, ACC, PK, COL left
unspecified, that is free values (70_reset R330, 10_state R45; log 8). It is the only way out of FAULT. -/
def resetRegisters (s : State) : State :=
  { s with
    status := .idle
    regs   := Regs.reset
    seq    := { phase := phaseOfNat (Config.freeNat s.draws 0), pos := Config.freeNat s.draws 1,
                fill := Config.freeNat s.draws 2, chi := Config.freeNat s.draws 3 }
    acc0   := Config.freeWord s.draws 0
    acc1   := Config.freeWord s.draws 1
    acc2   := Config.freeWord s.draws 2
    acc3   := Config.freeWord s.draws 3
    pk0    := (Config.freeWord s.draws 4).setWidth 8
    pk1    := (Config.freeWord s.draws 5).setWidth 8
    col0   := Config.freeColumn s.draws 0
    col1   := Config.freeColumn s.draws 1
    draws  := s.draws + 1 }

end Sys2Proof.Machine
end

