-- ==== Sys2Proof/Machine/Flags.lean ====
section
/-! DEFINITION. The block has no flags, condition codes or predicates (10_state R26): no operation sets a carry,
overflow, zero or saturation indication. The only status a host reads is STATUS.STATE (R30), whose computation is here:
the size check of START and the order of START's outcomes (40_host_commands R125, 60_exceptions R304). -/

namespace Sys2Proof.Machine

/-- `SizeOk` on the channel counts (40_host_commands R125): each packed tensor's channel count is a multiple of its
elements per byte (20_memory R69), and the output channel count is even. -/
def sizeOkCounts (t : Tag) (ci co : Nat) : Bool :=
  ci % t.ib.epb == 0 && ci % t.wb.epb == 0 && co % t.ob.epb == 0 && co % 2 == 0

end Sys2Proof.Machine
end

