-- ==== Sys2Proof/Machine/Operands.lean ====
section
/-! DEFINITION. How each operand is formed from its bits: the configuration fields (30_encoding R100), the derived
quantities (00_scope R12), packed elements (20_memory R64, R65), the tensors and descriptors in data memory
(20_memory R66 to R73), and the regions of a call (R74, R76). -/

namespace Sys2Proof.Machine

/-! ## Configuration fields, zero-extended (30_encoding R100) -/

/-- `DI = DIM_IN.DIM`. -/
def Regs.di (r : Regs) : Nat := r.dimIn.toNat

/-- `CI = CH_IN.CH`. -/
def Regs.ci (r : Regs) : Nat := r.chIn.toNat

/-- `CO = CH_OUT.CH`. -/
def Regs.co (r : Regs) : Nat := r.chOut.toNat

/-- `K = KSIZE.K`. -/
def Regs.k (r : Regs) : Nat := r.ksize.toNat

/-- `S = STRIDE.S`. -/
def Regs.s (r : Regs) : Nat := r.stride.toNat

/-- `PT = PAD.TOP`. -/
def Regs.pt (r : Regs) : Nat := (r.pad.extractLsb' 0 8).toNat

/-- `PB = PAD.BOTTOM`. -/
def Regs.pb (r : Regs) : Nat := (r.pad.extractLsb' 8 8).toNat

/-- `PL = PAD.LEFT`. -/
def Regs.pl (r : Regs) : Nat := (r.pad.extractLsb' 16 8).toNat

/-- `PR = PAD.RIGHT`. -/
def Regs.pr (r : Regs) : Nat := (r.pad.extractLsb' 24 8).toNat

/-- `ZP.Z_IN` (10_state R35). -/
def Regs.zIn (r : Regs) : Nat := (r.zp.extractLsb' 0 8).toNat

/-- `ZP.Z_W`. -/
def Regs.zW (r : Regs) : Nat := (r.zp.extractLsb' 8 8).toNat

/-- `ZP.Z_OUT`. -/
def Regs.zOut (r : Regs) : Nat := (r.zp.extractLsb' 16 8).toNat

/-- MODE as a 32-bit word: bits 31:8 read 0 (10_state R31). -/
def Regs.modeW (r : Regs) : Word := r.mode.setWidth 32

/-! ## Derived quantities (00_scope R12) -/

/-- `L = CI * K * K`, the column length. -/
def Regs.len (r : Regs) : Nat := r.ci * r.k * r.k

/-- `OUT_H = (DI + PT + PB - K) div S + 1`; the difference is not negative under premise H2 (log 13). -/
def Regs.outH (r : Regs) : Nat := (r.di + r.pt + r.pb - r.k) / r.s + 1

/-- `OUT_W = (DI + PL + PR - K) div S + 1`. -/
def Regs.outW (r : Regs) : Nat := (r.di + r.pl + r.pr - r.k) / r.s + 1

/-- `N = OUT_H * OUT_W`, the number of output positions. -/
def Regs.n (r : Regs) : Nat := r.outH * r.outW

/-- `NT = 2^OB - 1`, thresholds per output channel. -/
def thresholdCount (ob : Width) : Nat := 2 ^ ob.bits - 1

/-! ## Packed elements (20_memory R63 to R65) -/

/-- The element in slot `slot` of a byte, most significant first (20_memory R64). -/
def byteElem (b : Width) (slot : Nat) (byte : Byte) : Nat :=
  (byte.toNat >>> (8 - b.bits * (slot + 1))) &&& (2 ^ b.bits - 1)

/-- `PackedElem(base, b, i)` (20_memory R64). -/
def packedElem (m : Memory) (base : Nat) (b : Width) (i : Nat) : Nat :=
  byteElem b (i % b.epb) (m.read (wrapAddr (base + i / b.epb)))

/-- `PackByte(b, v)`: the byte that holds `epb(b)` consecutive elements (20_memory R65). -/
def packByte (b : Width) (v : List Nat) : Nat :=
  ((List.range b.epb).map (fun slot => v.getD slot 0 <<< (8 - b.bits * (slot + 1)))).sum

/-! ## Tensors (20_memory R66, R67) -/

/-- `In(y, x, c)` (20_memory R66). -/
def inElem (t : Tag) (r : Regs) (m : Memory) (y x c : Nat) : Nat :=
  packedElem m r.inBase.toNat t.ib ((y * r.di + x) * r.ci + c)

/-- `W(co, j)` (20_memory R67). -/
def weight (t : Tag) (r : Regs) (m : Memory) (co j : Nat) : Nat :=
  packedElem m r.wBase.toNat t.wb (co * r.len + j)

/-! ## Descriptors (20_memory R70 to R73) -/

/-- `Bias(c)` (20_memory R70). -/
def bias (r : Regs) (m : Memory) (c : Nat) : Int := memReadS32 m (r.biasBase.toNat + 4 * c)

/-- `Thr(c, j)` (20_memory R71). -/
def thr (t : Tag) (r : Regs) (m : Memory) (c j : Nat) : Int :=
  memReadS32 m (r.qaBase.toNat + 4 * (c * thresholdCount t.ob + j))

/-- `Mul(c)` (20_memory R72). -/
def mul (r : Regs) (m : Memory) (c : Nat) : Int := memReadS32 m (r.qaBase.toNat + 4 * c)

/-- `Shf(c)` (20_memory R72). -/
def shf (r : Regs) (m : Memory) (c : Nat) : Int := memReadS8 m (r.qbBase.toNat + c)

/-- `Zw(c)`: ZP.Z_W, or one unsigned byte per output channel when ZWM = 1 (20_memory R73). -/
def zw (t : Tag) (r : Regs) (m : Memory) (c : Nat) : Nat :=
  if t.zwm then memRead m (r.zwBase.toNat + c) 1 else r.zW

/-- The corrected weight `Wc(c, j) = W(c, j) - Zw(c)`, exact (43_dot_product R242). -/
def corrWeight (t : Tag) (r : Regs) (m : Memory) (c j : Nat) : Int :=
  (weight t r m c j : Int) - (zw t r m c : Int)

/-- The signed shift split into `(ls, rs)` (30_encoding R101). -/
def shiftSplit (n : Int) : Nat × Nat := if n < 0 then ((-n).toNat, 0) else (0, n.toNat)

/-! ## Regions of a call (20_memory R74, R76) -/

/-- Region IN. -/
def inSpan (t : Tag) (r : Regs) : Span := { base := r.inBase.toNat, size := r.di * r.di * r.ci * t.ib.bits / 8 }

/-- Region W. -/
def wSpan (t : Tag) (r : Regs) : Span := { base := r.wBase.toNat, size := r.co * r.len * t.wb.bits / 8 }

/-- Region BIAS. -/
def biasSpan (r : Regs) : Span := { base := r.biasBase.toNat, size := 4 * r.co }

/-- Region QA: the threshold table, or the multiplier array. -/
def qaSpan (t : Tag) (r : Regs) : Span :=
  match t.fold with
  | .thr => { base := r.qaBase.toNat, size := 4 * r.co * thresholdCount t.ob }
  | .icn => { base := r.qaBase.toNat, size := 4 * r.co }

/-- Region QB: the shift array; empty under THR. -/
def qbSpan (t : Tag) (r : Regs) : Span :=
  match t.fold with
  | .thr => { base := r.qbBase.toNat, size := 0 }
  | .icn => { base := r.qbBase.toNat, size := r.co }

/-- Region ZW: empty unless ZWM = 1. -/
def zwSpan (t : Tag) (r : Regs) : Span :=
  { base := r.zwBase.toNat, size := if t.zwm then r.co else 0 }

/-- Region OUT. -/
def outSpan (t : Tag) (r : Regs) : Span := { base := r.outBase.toNat, size := r.n * r.co * t.ob.bits / 8 }

/-- Region COLBUF: two columns of `L` widened elements of 2 bytes (20_memory R74). -/
def colbufSpan (r : Regs) : Span := { base := r.colbufBase.toNat, size := 4 * r.len }

/-- Region SCRB: never accessed, size 0 (20_memory R75, R76). -/
def scrbSpan (r : Regs) : Span := { base := r.scrbBase.toNat, size := 0 }

/-- The regions the block only reads. -/
def readSpans (t : Tag) (r : Regs) : List Span :=
  [inSpan t r, wSpan t r, biasSpan r, qaSpan t r, qbSpan t r, zwSpan t r]

/-- Every region of a call (20_memory R76). -/
def callSpans (t : Tag) (r : Regs) : List Span :=
  readSpans t r ++ [outSpan t r, colbufSpan r, scrbSpan r]

end Sys2Proof.Machine
end

