-- ==== Sys2Proof/Machine/Window.lean ====
section
/-! DEFINITION. The window builder and its unpacker (42_window_builder R210 to R226): the column GATHER writes, and the
bands and the interior fast path, which no result depends on (R218, R219, R222). -/

namespace Sys2Proof.Machine

/-- `Unpack(ptr, cnt, b, zp)` (42_window_builder R211). -/
def unpack (m : Memory) (ptr cnt : Nat) (b : Width) (zp : Nat) : List Int :=
  (List.range cnt).map (fun i => (packedElem m ptr b i : Int) - (zp : Int))

/-- `oy` of an output position (40_host_commands R134). -/
def posRow (r : Regs) (pos : Nat) : Nat := pos / r.outW

/-- `ox` of an output position. -/
def posCol (r : Regs) (pos : Nat) : Nat := pos % r.outW

/-- `iy0 = oy*S - PT`, may be negative (42_window_builder R213). -/
def originRow (r : Regs) (pos : Nat) : Int := (posRow r pos * r.s : Nat) - (r.pt : Int)

/-- `ix0 = ox*S - PL`, may be negative. -/
def originCol (r : Regs) (pos : Nat) : Int := (posCol r pos * r.s : Nat) - (r.pl : Int)

/-- Kernel row of column element `j = (ky*K + kx)*CI + c` (42_window_builder R212). -/
def elemKy (r : Regs) (j : Nat) : Nat := j / r.ci / r.k

/-- Kernel column of a column element. -/
def elemKx (r : Regs) (j : Nat) : Nat := j / r.ci % r.k

/-- Input channel of a column element. -/
def elemC (r : Regs) (j : Nat) : Nat := j % r.ci

/-- Whether an input pixel is in bounds. -/
def inBounds (r : Regs) (iy ix : Int) : Bool :=
  decide (0 ≤ iy) && decide (iy < (r.di : Int)) && decide (0 ≤ ix) && decide (ix < (r.di : Int))

/-- `Window(pos)[j]` at a kernel position: the corrected input element, or the number 0 for padding
(42_window_builder R214, R215). -/
def windowAt (t : Tag) (r : Regs) (m : Memory) (pos ky kx c : Nat) : Int :=
  let iy := originRow r pos + (ky : Int)
  let ix := originCol r pos + (kx : Int)
  if inBounds r iy ix then (inElem t r m iy.toNat ix.toNat c : Int) - (r.zIn : Int) else 0

/-- `Window(pos)[j]` (42_window_builder R214). -/
def windowElem (t : Tag) (r : Regs) (m : Memory) (pos j : Nat) : Int :=
  windowAt t r m pos (elemKy r j) (elemKx r j) (elemC r j)

/-- `Window(pos)` as the column of `L` widened elements GATHER writes (42_window_builder R214, R216). -/
def window (t : Tag) (r : Regs) (m : Memory) (pos : Nat) : List Elem :=
  (List.range r.len).map (fun j => BitVec.ofInt 16 (windowElem t r m pos j))

/-- The value of `COL[k][j]` of a column (43_dot_product R243). -/
def colElem (col : List Elem) (j : Nat) : Int := (col.getD j 0#16).toInt

/-! ## Bands and the fast path (42_window_builder R218, R219): no operation reads them -/

/-- A band along one axis. -/
inductive Band where
  /-- `top` of the rows, `left` of the columns. -/
  | before
  /-- `middle` of the rows, `mid` of the columns. -/
  | inside
  /-- `bottom` of the rows, `right` of the columns. -/
  | after
  deriving DecidableEq, Repr

/-- The band of a window origin along one axis: `top` if negative, else `bottom` if it reaches past the input
(42_window_builder R218). -/
def bandOf (r : Regs) (origin : Int) : Band :=
  if origin < 0 then .before else if origin + (r.k : Int) > (r.di : Int) then .after else .inside

/-- The byte address of the packed input row a middle × mid window's kernel row `ky` starts at (42_window_builder R219). -/
def fastRowAddr (t : Tag) (r : Regs) (pos ky : Nat) : Nat :=
  r.inBase.toNat + ((((originRow r pos).toNat + ky) * r.di + (originCol r pos).toNat) * r.ci * t.ib.bits / 8)

/-- Kernel row `ky` of a middle × mid window, copied without a bounds test (42_window_builder R219). -/
def fastRow (t : Tag) (r : Regs) (m : Memory) (pos ky : Nat) : List Int :=
  unpack m (fastRowAddr t r pos ky) (r.k * r.ci) t.ib r.zIn

/-- In-bounds pixels of a window along one axis, `min(DI, o + K) - max(0, o)`, 0 when negative (42_window_builder R225). -/
def inBoundsCount (r : Regs) (origin : Int) : Nat :=
  (min (r.di : Int) (origin + (r.k : Int)) - max 0 origin).toNat

end Sys2Proof.Machine
end

