-- ==== Sys2Proof/Machine/Dot.lean ====
section
/-! DEFINITION. The packed dot-product engine (43_dot_product R240 to R255): the four accumulators of DOT2 and the one of
DOT1, each addition taken modulo `2^32` and read as signed (R247). -/

namespace Sys2Proof.Machine

/-- One multiply-accumulate, `ACC <- s32(ACC + w * a)` (43_dot_product R244, R247). -/
def mac (acc : Word) (w a : Int) : Word := word32 (acc.toInt + w * a)

/-- The accumulator of channel `c` against a column, seeded from the bias (43_dot_product R245, R246, R248). -/
def dotColumn (t : Tag) (r : Regs) (m : Memory) (c : Nat) (col : List Elem) : Word :=
  (List.range r.len).foldl (fun acc j => mac acc (corrWeight t r m c j) (colElem col j)) (word32 (bias r m c))

/-- The four accumulators of a DOT2 micro-step. -/
structure Acc4 where
  a0 : Word
  a1 : Word
  a2 : Word
  a3 : Word
  deriving DecidableEq, Repr

/-- One turn of the DOT2 loop: the same weight serves both columns, the same column element both channels
(43_dot_product R244). -/
def dot2Turn (t : Tag) (r : Regs) (m : Memory) (c : Nat) (col0 col1 : List Elem) (q : Acc4) (j : Nat) : Acc4 :=
  let w0 := corrWeight t r m c j
  let w1 := corrWeight t r m (c + 1) j
  let a := colElem col0 j
  let b := colElem col1 j
  { a0 := mac q.a0 w0 a, a1 := mac q.a1 w0 b, a2 := mac q.a2 w1 a, a3 := mac q.a3 w1 b }

/-- `Dot2(c)` (43_dot_product R244). -/
def dot2 (t : Tag) (r : Regs) (m : Memory) (c : Nat) (col0 col1 : List Elem) : Acc4 :=
  (List.range r.len).foldl (dot2Turn t r m c col0 col1)
    { a0 := word32 (bias r m c), a1 := word32 (bias r m c),
      a2 := word32 (bias r m (c + 1)), a3 := word32 (bias r m (c + 1)) }

/-- `Dot1(c)` (43_dot_product R246). -/
def dot1 (t : Tag) (r : Regs) (m : Memory) (c : Nat) (col0 : List Elem) : Word := dotColumn t r m c col0

end Sys2Proof.Machine
end

