-- ==== Sys2Proof/Machine/Requant.lean ====
section
/-! DEFINITION. The re-quantizer and the output packer (44_requant_pack R270 to R289). -/

namespace Sys2Proof.Machine

/-- `FoldThr(c, acc)`: how many of the channel's thresholds the accumulator exceeds, strictly (44_requant_pack R272). -/
def foldThr (t : Tag) (r : Regs) (m : Memory) (c : Nat) (acc : Int) : Nat :=
  (List.range (thresholdCount t.ob)).countP (fun j => decide (acc > thr t r m c j))

/-- The pre-shift `t = s32(acc << ls)` (44_requant_pack R275). -/
def icnPre (acc n : Int) : Int := s32 (shl acc (shiftSplit n).1)

/-- The multiply-high `hi = prod >>a 32` (44_requant_pack R276). -/
def icnHi (acc m n : Int) : Int := sra (icnPre acc n * m) 32

/-- The post-shifted value with the output zero point, `v = (hi >>a rs) + Z_OUT` (44_requant_pack R277, R278). -/
def icnValue (acc m n : Int) (zOut : Nat) : Int := sra (icnHi acc m n) (shiftSplit n).2 + (zOut : Int)

/-- The level of the scale/shift fold: `v` clamped to `0 .. 2^OB - 1` (44_requant_pack R274, R279). -/
def icnLevel (ob : Width) (acc m n : Int) (zOut : Nat) : Nat :=
  (clamp (icnValue acc m n zOut) 0 (2 ^ ob.bits - 1)).toNat

/-- `FoldIcn(c, acc)` (44_requant_pack R274). -/
def foldIcn (t : Tag) (r : Regs) (m : Memory) (c : Nat) (acc : Int) : Nat :=
  icnLevel t.ob acc (mul r m c) (shf r m c) r.zOut

/-- `Fold(c, acc)`, the policy fixed by the instruction (44_requant_pack R270). -/
def fold (t : Tag) (r : Regs) (m : Memory) (c : Nat) (acc : Word) : Nat :=
  match t.fold with
  | .thr => foldThr t r m c acc.toInt
  | .icn => foldIcn t r m c acc.toInt

/-- The address PACK emits the byte of `(pos, c)` at (44_requant_pack R280, R281). -/
def packAddr (t : Tag) (r : Regs) (pos c : Nat) : Nat :=
  wrapAddr (r.outBase.toNat + (pos * r.co + c) / t.ob.epb)

/-- The pack register with a level put in its slot, most significant first (44_requant_pack R280, R283). -/
def packOr (ob : Width) (pk : Byte) (c lv : Nat) : Byte :=
  pk ||| BitVec.ofNat 8 (lv <<< (8 - ob.bits * (c % ob.epb + 1)))

/-- Whether channel `c` fills the last slot of its byte (44_requant_pack R280). -/
def packEmits (ob : Width) (c : Nat) : Bool := c % ob.epb == ob.epb - 1

/-- A pack register and memory after `PACK(k, pos, c, lv)` on that register; the write is `MemWrite(.., 1, ..)`
(44_requant_pack R280). -/
def packByteStep (t : Tag) (r : Regs) (pk : Byte) (m : Memory) (pos c lv : Nat) : Byte × Memory :=
  if packEmits t.ob c then (0#8, m.write (packAddr t r pos c) (packOr t.ob pk c lv))
  else (packOr t.ob pk c lv, m)

/-- `PACK(0, pos, c, Fold(c, acc))` (40_host_commands R132, R133). -/
def pack0 (t : Tag) (pos c : Nat) (acc : Word) (s : State) : State :=
  let q := packByteStep t s.regs s.pk0 s.mem pos c (fold t s.regs s.mem c acc)
  { s with pk0 := q.1, mem := q.2 }

/-- `PACK(1, pos, c, Fold(c, acc))` (40_host_commands R132). -/
def pack1 (t : Tag) (pos c : Nat) (acc : Word) (s : State) : State :=
  let q := packByteStep t s.regs s.pk1 s.mem pos c (fold t s.regs s.mem c acc)
  { s with pk1 := q.1, mem := q.2 }

end Sys2Proof.Machine
end

