-- ==== Sys2Proof/Machine/Sequencer.lean ====
section
/-! DEFINITION. The sequencer (40_host_commands R128 to R137): the four micro-steps, their transitions, and a whole call
as the run of its micro-steps (R138, R150). -/

namespace Sys2Proof.Machine

/-- `SEQ` after a GATHER (40_host_commands R130). -/
def seqAfterGather (r : Regs) (q : SeqState) : SeqState :=
  if q.fill + 1 = 2 then { phase := .dot2, pos := q.pos + 1, fill := q.fill + 1, chi := 0 }
  else if q.pos + 1 = r.n then { phase := .dot1, pos := q.pos + 1, fill := q.fill + 1, chi := 0 }
  else { phase := .gather, pos := q.pos + 1, fill := q.fill + 1, chi := q.chi }

/-- GATHER: column `FILL` takes the whole window of position `POS` (40_host_commands R130, R131). -/
def gather (t : Tag) (s : State) : State :=
  if s.seq.fill = 0 then
    { s with col0 := window t s.regs s.mem s.seq.pos, seq := seqAfterGather s.regs s.seq }
  else
    { s with col1 := window t s.regs s.mem s.seq.pos, seq := seqAfterGather s.regs s.seq }

/-- `SEQ` after a DOT2 (40_host_commands R132). -/
def seqAfterDot2 (r : Regs) (q : SeqState) : SeqState :=
  if q.chi + 2 = r.co then
    { phase := if q.pos = r.n then .finish else .gather, pos := q.pos, fill := 0, chi := q.chi + 2 }
  else { phase := .dot2, pos := q.pos, fill := q.fill, chi := q.chi + 2 }

/-- The accumulators of a state, replaced. -/
def State.withAcc (s : State) (q : Acc4) : State :=
  { s with acc0 := q.a0, acc1 := q.a1, acc2 := q.a2, acc3 := q.a3 }

/-- DOT2 (40_host_commands R132): four accumulators, four PACKs in the canonical order. -/
def dot2Step (t : Tag) (s : State) : State :=
  let c := s.seq.chi
  let q := dot2 t s.regs s.mem c s.col0 s.col1
  let s1 := pack0 t (s.seq.pos - 2) c q.a0 (s.withAcc q)
  let s2 := pack1 t (s.seq.pos - 1) c q.a1 s1
  let s3 := pack0 t (s.seq.pos - 2) (c + 1) q.a2 s2
  let s4 := pack1 t (s.seq.pos - 1) (c + 1) q.a3 s3
  { s4 with seq := seqAfterDot2 s.regs s.seq }

/-- `SEQ` after a DOT1 (40_host_commands R133). -/
def seqAfterDot1 (r : Regs) (q : SeqState) : SeqState :=
  if q.chi + 1 = r.co then { phase := .finish, pos := q.pos, fill := 0, chi := q.chi + 1 }
  else { phase := .dot1, pos := q.pos, fill := q.fill, chi := q.chi + 1 }

/-- DOT1 (40_host_commands R133): one accumulator, one PACK. -/
def dot1Step (t : Tag) (s : State) : State :=
  let c := s.seq.chi
  let a := dot1 t s.regs s.mem c s.col0
  let s1 := pack0 t (s.seq.pos - 1) c a { s with acc0 := a }
  { s1 with seq := seqAfterDot1 s.regs s.seq }

/-- FINISH (40_host_commands R136). -/
def finish (s : State) : State := { s with status := .done }

/-- The one enabled micro-step of a BUSY block, named by SEQ.PHASE (40_host_commands R128). -/
def microStep (t : Tag) (s : State) : State :=
  match s.seq.phase with
  | .gather => gather t s
  | .dot2 => dot2Step t s
  | .dot1 => dot1Step t s
  | .finish => finish s

/-- The number of micro-steps of a call (40_host_commands R137). -/
def callSteps (r : Regs) : Nat := r.n + (r.n / 2) * (r.co / 2) + (r.n % 2) * r.co + 1

/-- A block left to itself for at most `fuel` micro-steps (40_host_commands R128: no micro-step unless BUSY). -/
def runCall (t : Tag) (fuel : Nat) (s : State) : State :=
  match fuel with
  | 0 => s
  | k + 1 => if s.status = .busy then runCall t k (microStep t s) else s

end Sys2Proof.Machine
end

