-- ==== Sys2Proof/Machine/Launch.lean ====
section
/-! DEFINITION. START (40_host_commands R122 to R127): the examination in the order of 60_exceptions R304, the launch
premises (R126), and accepting a call (R127); and the shared operation of the convolution instructions
(41_conv_modes R150) and of the reserved rows (R196, R197). -/

namespace Sys2Proof.Machine

/-- `SizeOk` (40_host_commands R125). -/
def sizeOk (t : Tag) (r : Regs) : Bool := sizeOkCounts t r.ci r.co

/-- Premise H1: no degenerate scalar (40_host_commands R126). -/
def premiseH1 (r : Regs) : Bool :=
  decide (1 ≤ r.di) && decide (1 ≤ r.ci) && decide (1 ≤ r.co) && decide (1 ≤ r.k) && decide (1 ≤ r.s)

/-- Premise H2: the kernel fits the padded input on both axes. -/
def premiseH2 (r : Regs) : Bool :=
  decide (r.k ≤ r.di + r.pt + r.pb) && decide (r.k ≤ r.di + r.pl + r.pr)

/-- Premise H3: no region passes the top of the address space. -/
def premiseH3 (t : Tag) (r : Regs) : Bool :=
  (callSpans t r).all (fun q => decide (q.base + q.size ≤ Config.addrSpace))

/-- Premise H4: OUT and COLBUF are disjoint from every other region; read-only regions may overlap one another. -/
def premiseH4 (t : Tag) (r : Regs) : Bool :=
  (readSpans t r).all (fun q => q.disjoint (outSpan t r)) &&
  (readSpans t r).all (fun q => q.disjoint (colbufSpan r)) &&
  (outSpan t r).disjoint (colbufSpan r)

/-- Premise H5: storage backs every byte of every region (20_memory R78; log 9). -/
def premiseH5 (t : Tag) (r : Regs) (holes : List Span) : Bool :=
  (callSpans t r).all (fun q => q.backed holes)

/-- A shift entry in the contract's range (20_memory R72). -/
def shiftInRange (n : Int) : Bool := decide (-31 ≤ n) && decide (n ≤ 31)

/-- Premise H6: under ICN every shift entry is in `-31 .. 31`. -/
def premiseH6 (t : Tag) (r : Regs) (m : Memory) : Bool :=
  match t.fold with
  | .thr => true
  | .icn => (List.range r.co).all (fun c => shiftInRange (shf r m c))

/-- The premises whose failure is `refuse(OutOfContract)` (40_host_commands R126; 93 U1 to U4, U8). -/
def inContract (t : Tag) (r : Regs) (m : Memory) : Bool :=
  premiseH1 r && premiseH2 r && premiseH3 t r && premiseH4 t r && premiseH6 t r m

/-- Accepting a START (40_host_commands R127): BUSY, SEQ at its start, the pack registers cleared; from this step every
byte of region COLBUF is unspecified (20_memory R75), and those of OUT are to the host until it has read a STATUS other
than BUSY (R81 (b); log 7). -/
def accept (t : Tag) (s : State) : State :=
  { s with
    status := .busy
    seq    := { phase := .gather, pos := 0, fill := 0, chi := 0 }
    pk0    := 0#8
    pk1    := 0#8
    mem    := s.mem.forgetSpan s.draws (colbufSpan s.regs).base (colbufSpan s.regs).size
    unseen := outSpan t s.regs :: s.unseen
    draws  := s.draws + 1 }

/-- What a START does after a Legal decode (40_host_commands R122; 60_exceptions R304 (3) to (5)). -/
def launch (t : Tag) (s : State) : Out :=
  if sizeOk t s.regs = false then .next (raise .sizeMismatch s)
  else if inContract t s.regs s.mem = false then .refused .outOfContract
  else if premiseH5 t s.regs s.holes = false then .refused .unbackedRegion
  else .next (accept t s)

/-- START (40_host_commands R122). -/
def startCommand (s : State) : Out :=
  if acceptsStart s.status then
    match modeDecode s.regs.modeW with
    | .reserved _ => .next (raise .fault s)
    | .legal t => launch t s
  else .next s

/-- A whole call of a convolution instruction (41_conv_modes R150, 40_host_commands R138): START's examination with the
instruction's constants, then the block's micro-steps to DONE (log 4). -/
def convCall (t : Tag) (s : State) : Out :=
  if acceptsStart s.status then
    match launch t s with
    | .next s' => .next (runCall t (callSteps s.regs) s')
    | .fault f => .fault f
    | .refused q => .refused q
  else .next s

/-- A reserved row: `raise FAULT`, nothing else changes, no memory access (41_conv_modes R196, R197). -/
def reservedMode (s : State) : Out :=
  if acceptsStart s.status then .next (raise .fault s) else .next s

end Sys2Proof.Machine
end

