-- ==== Sys2Proof/Machine/Commands.lean ====
section
/-! DEFINITION. The CMD words (40_host_commands R121, R122). -/

namespace Sys2Proof.Machine

/-- `START` (40_host_commands R122): the outcome is decided in this step (R123). -/
def execStart (s : State) : Out := startCommand s

/-- `CMD.NOP0` (40_host_commands R121): nothing, in every STATE. -/
def execCmdNop0 (s : State) : Out := .next s

/-- `CMD.RSVD2` (40_host_commands R121): nothing, in every STATE. -/
def execCmdRsvd2 (s : State) : Out := .next s

/-- `CMD.RSVD3` (40_host_commands R121): nothing, in every STATE. -/
def execCmdRsvd3 (s : State) : Out := .next s

/-- `CMD.RSVD4` (40_host_commands R121): nothing, in every STATE. -/
def execCmdRsvd4 (s : State) : Out := .next s

/-- `CMD.RSVD5` (40_host_commands R121): nothing, in every STATE. -/
def execCmdRsvd5 (s : State) : Out := .next s

/-- `CMD.RSVD6` (40_host_commands R121): nothing, in every STATE. -/
def execCmdRsvd6 (s : State) : Out := .next s

/-- `CMD.RSVD7` (40_host_commands R121): nothing, in every STATE. -/
def execCmdRsvd7 (s : State) : Out := .next s

/-- `CMD.RSVD8` (40_host_commands R121): nothing, in every STATE. -/
def execCmdRsvd8 (s : State) : Out := .next s

/-- `CMD.RSVD9` (40_host_commands R121): nothing, in every STATE. -/
def execCmdRsvd9 (s : State) : Out := .next s

/-- `CMD.RSVD10` (40_host_commands R121): nothing, in every STATE. -/
def execCmdRsvd10 (s : State) : Out := .next s

/-- `CMD.RSVD11` (40_host_commands R121): nothing, in every STATE. -/
def execCmdRsvd11 (s : State) : Out := .next s

/-- `CMD.RSVD12` (40_host_commands R121): nothing, in every STATE. -/
def execCmdRsvd12 (s : State) : Out := .next s

/-- `CMD.RSVD13` (40_host_commands R121): nothing, in every STATE. -/
def execCmdRsvd13 (s : State) : Out := .next s

/-- `CMD.RSVD14` (40_host_commands R121): nothing, in every STATE. -/
def execCmdRsvd14 (s : State) : Out := .next s

/-- `CMD.RSVD15` (40_host_commands R121): nothing, in every STATE. -/
def execCmdRsvd15 (s : State) : Out := .next s

end Sys2Proof.Machine
end

