-- ==== Sys2Proof/Machine/ConvIcn.lean ====
section
/-! DEFINITION. The 27 scale/shift-folding convolutions (41_conv_modes R169 to R195). -/

namespace Sys2Proof.Machine

/-- `CONV.I2.W2.O2.ICN` (41_conv_modes R169): `CONV(2, 2, 2, ICN, ZWM)` of R150. -/
def execConvI2W2O2Icn (z : Bool) (s : State) : Out := convCall ⟨.b2, .b2, .b2, .icn, z⟩ s

/-- `CONV.I4.W2.O2.ICN` (41_conv_modes R170): `CONV(4, 2, 2, ICN, ZWM)` of R150. -/
def execConvI4W2O2Icn (z : Bool) (s : State) : Out := convCall ⟨.b4, .b2, .b2, .icn, z⟩ s

/-- `CONV.I8.W2.O2.ICN` (41_conv_modes R171): `CONV(8, 2, 2, ICN, ZWM)` of R150. -/
def execConvI8W2O2Icn (z : Bool) (s : State) : Out := convCall ⟨.b8, .b2, .b2, .icn, z⟩ s

/-- `CONV.I2.W4.O2.ICN` (41_conv_modes R172): `CONV(2, 4, 2, ICN, ZWM)` of R150. -/
def execConvI2W4O2Icn (z : Bool) (s : State) : Out := convCall ⟨.b2, .b4, .b2, .icn, z⟩ s

/-- `CONV.I4.W4.O2.ICN` (41_conv_modes R173): `CONV(4, 4, 2, ICN, ZWM)` of R150. -/
def execConvI4W4O2Icn (z : Bool) (s : State) : Out := convCall ⟨.b4, .b4, .b2, .icn, z⟩ s

/-- `CONV.I8.W4.O2.ICN` (41_conv_modes R174): `CONV(8, 4, 2, ICN, ZWM)` of R150. -/
def execConvI8W4O2Icn (z : Bool) (s : State) : Out := convCall ⟨.b8, .b4, .b2, .icn, z⟩ s

/-- `CONV.I2.W8.O2.ICN` (41_conv_modes R175): `CONV(2, 8, 2, ICN, ZWM)` of R150. -/
def execConvI2W8O2Icn (z : Bool) (s : State) : Out := convCall ⟨.b2, .b8, .b2, .icn, z⟩ s

/-- `CONV.I4.W8.O2.ICN` (41_conv_modes R176): `CONV(4, 8, 2, ICN, ZWM)` of R150. -/
def execConvI4W8O2Icn (z : Bool) (s : State) : Out := convCall ⟨.b4, .b8, .b2, .icn, z⟩ s

/-- `CONV.I8.W8.O2.ICN` (41_conv_modes R177): `CONV(8, 8, 2, ICN, ZWM)` of R150. -/
def execConvI8W8O2Icn (z : Bool) (s : State) : Out := convCall ⟨.b8, .b8, .b2, .icn, z⟩ s

/-- `CONV.I2.W2.O4.ICN` (41_conv_modes R178): `CONV(2, 2, 4, ICN, ZWM)` of R150. -/
def execConvI2W2O4Icn (z : Bool) (s : State) : Out := convCall ⟨.b2, .b2, .b4, .icn, z⟩ s

/-- `CONV.I4.W2.O4.ICN` (41_conv_modes R179): `CONV(4, 2, 4, ICN, ZWM)` of R150. -/
def execConvI4W2O4Icn (z : Bool) (s : State) : Out := convCall ⟨.b4, .b2, .b4, .icn, z⟩ s

/-- `CONV.I8.W2.O4.ICN` (41_conv_modes R180): `CONV(8, 2, 4, ICN, ZWM)` of R150. -/
def execConvI8W2O4Icn (z : Bool) (s : State) : Out := convCall ⟨.b8, .b2, .b4, .icn, z⟩ s

/-- `CONV.I2.W4.O4.ICN` (41_conv_modes R181): `CONV(2, 4, 4, ICN, ZWM)` of R150. -/
def execConvI2W4O4Icn (z : Bool) (s : State) : Out := convCall ⟨.b2, .b4, .b4, .icn, z⟩ s

/-- `CONV.I4.W4.O4.ICN` (41_conv_modes R182): `CONV(4, 4, 4, ICN, ZWM)` of R150. -/
def execConvI4W4O4Icn (z : Bool) (s : State) : Out := convCall ⟨.b4, .b4, .b4, .icn, z⟩ s

/-- `CONV.I8.W4.O4.ICN` (41_conv_modes R183): `CONV(8, 4, 4, ICN, ZWM)` of R150. -/
def execConvI8W4O4Icn (z : Bool) (s : State) : Out := convCall ⟨.b8, .b4, .b4, .icn, z⟩ s

/-- `CONV.I2.W8.O4.ICN` (41_conv_modes R184): `CONV(2, 8, 4, ICN, ZWM)` of R150. -/
def execConvI2W8O4Icn (z : Bool) (s : State) : Out := convCall ⟨.b2, .b8, .b4, .icn, z⟩ s

/-- `CONV.I4.W8.O4.ICN` (41_conv_modes R185): `CONV(4, 8, 4, ICN, ZWM)` of R150. -/
def execConvI4W8O4Icn (z : Bool) (s : State) : Out := convCall ⟨.b4, .b8, .b4, .icn, z⟩ s

/-- `CONV.I8.W8.O4.ICN` (41_conv_modes R186): `CONV(8, 8, 4, ICN, ZWM)` of R150. -/
def execConvI8W8O4Icn (z : Bool) (s : State) : Out := convCall ⟨.b8, .b8, .b4, .icn, z⟩ s

/-- `CONV.I2.W2.O8.ICN` (41_conv_modes R187): `CONV(2, 2, 8, ICN, ZWM)` of R150. -/
def execConvI2W2O8Icn (z : Bool) (s : State) : Out := convCall ⟨.b2, .b2, .b8, .icn, z⟩ s

/-- `CONV.I4.W2.O8.ICN` (41_conv_modes R188): `CONV(4, 2, 8, ICN, ZWM)` of R150. -/
def execConvI4W2O8Icn (z : Bool) (s : State) : Out := convCall ⟨.b4, .b2, .b8, .icn, z⟩ s

/-- `CONV.I8.W2.O8.ICN` (41_conv_modes R189): `CONV(8, 2, 8, ICN, ZWM)` of R150. -/
def execConvI8W2O8Icn (z : Bool) (s : State) : Out := convCall ⟨.b8, .b2, .b8, .icn, z⟩ s

/-- `CONV.I2.W4.O8.ICN` (41_conv_modes R190): `CONV(2, 4, 8, ICN, ZWM)` of R150. -/
def execConvI2W4O8Icn (z : Bool) (s : State) : Out := convCall ⟨.b2, .b4, .b8, .icn, z⟩ s

/-- `CONV.I4.W4.O8.ICN` (41_conv_modes R191): `CONV(4, 4, 8, ICN, ZWM)` of R150. -/
def execConvI4W4O8Icn (z : Bool) (s : State) : Out := convCall ⟨.b4, .b4, .b8, .icn, z⟩ s

/-- `CONV.I8.W4.O8.ICN` (41_conv_modes R192): `CONV(8, 4, 8, ICN, ZWM)` of R150. -/
def execConvI8W4O8Icn (z : Bool) (s : State) : Out := convCall ⟨.b8, .b4, .b8, .icn, z⟩ s

/-- `CONV.I2.W8.O8.ICN` (41_conv_modes R193): `CONV(2, 8, 8, ICN, ZWM)` of R150. -/
def execConvI2W8O8Icn (z : Bool) (s : State) : Out := convCall ⟨.b2, .b8, .b8, .icn, z⟩ s

/-- `CONV.I4.W8.O8.ICN` (41_conv_modes R194): `CONV(4, 8, 8, ICN, ZWM)` of R150. -/
def execConvI4W8O8Icn (z : Bool) (s : State) : Out := convCall ⟨.b4, .b8, .b8, .icn, z⟩ s

/-- `CONV.I8.W8.O8.ICN` (41_conv_modes R195): `CONV(8, 8, 8, ICN, ZWM)` of R150. -/
def execConvI8W8O8Icn (z : Bool) (s : State) : Out := convCall ⟨.b8, .b8, .b8, .icn, z⟩ s

end Sys2Proof.Machine
end

