-- ==== Sys2Proof/Machine/ConvThr.lean ====
section
/-! DEFINITION. The 18 threshold-folding convolutions (41_conv_modes R151 to R168). -/

namespace Sys2Proof.Machine

/-- `CONV.I2.W2.O2.THR` (41_conv_modes R151): `CONV(2, 2, 2, THR, ZWM)` of R150. -/
def execConvI2W2O2Thr (z : Bool) (s : State) : Out := convCall ⟨.b2, .b2, .b2, .thr, z⟩ s

/-- `CONV.I4.W2.O2.THR` (41_conv_modes R152): `CONV(4, 2, 2, THR, ZWM)` of R150. -/
def execConvI4W2O2Thr (z : Bool) (s : State) : Out := convCall ⟨.b4, .b2, .b2, .thr, z⟩ s

/-- `CONV.I8.W2.O2.THR` (41_conv_modes R153): `CONV(8, 2, 2, THR, ZWM)` of R150. -/
def execConvI8W2O2Thr (z : Bool) (s : State) : Out := convCall ⟨.b8, .b2, .b2, .thr, z⟩ s

/-- `CONV.I2.W4.O2.THR` (41_conv_modes R154): `CONV(2, 4, 2, THR, ZWM)` of R150. -/
def execConvI2W4O2Thr (z : Bool) (s : State) : Out := convCall ⟨.b2, .b4, .b2, .thr, z⟩ s

/-- `CONV.I4.W4.O2.THR` (41_conv_modes R155): `CONV(4, 4, 2, THR, ZWM)` of R150. -/
def execConvI4W4O2Thr (z : Bool) (s : State) : Out := convCall ⟨.b4, .b4, .b2, .thr, z⟩ s

/-- `CONV.I8.W4.O2.THR` (41_conv_modes R156): `CONV(8, 4, 2, THR, ZWM)` of R150. -/
def execConvI8W4O2Thr (z : Bool) (s : State) : Out := convCall ⟨.b8, .b4, .b2, .thr, z⟩ s

/-- `CONV.I2.W8.O2.THR` (41_conv_modes R157): `CONV(2, 8, 2, THR, ZWM)` of R150. -/
def execConvI2W8O2Thr (z : Bool) (s : State) : Out := convCall ⟨.b2, .b8, .b2, .thr, z⟩ s

/-- `CONV.I4.W8.O2.THR` (41_conv_modes R158): `CONV(4, 8, 2, THR, ZWM)` of R150. -/
def execConvI4W8O2Thr (z : Bool) (s : State) : Out := convCall ⟨.b4, .b8, .b2, .thr, z⟩ s

/-- `CONV.I8.W8.O2.THR` (41_conv_modes R159): `CONV(8, 8, 2, THR, ZWM)` of R150. -/
def execConvI8W8O2Thr (z : Bool) (s : State) : Out := convCall ⟨.b8, .b8, .b2, .thr, z⟩ s

/-- `CONV.I2.W2.O4.THR` (41_conv_modes R160): `CONV(2, 2, 4, THR, ZWM)` of R150. -/
def execConvI2W2O4Thr (z : Bool) (s : State) : Out := convCall ⟨.b2, .b2, .b4, .thr, z⟩ s

/-- `CONV.I4.W2.O4.THR` (41_conv_modes R161): `CONV(4, 2, 4, THR, ZWM)` of R150. -/
def execConvI4W2O4Thr (z : Bool) (s : State) : Out := convCall ⟨.b4, .b2, .b4, .thr, z⟩ s

/-- `CONV.I8.W2.O4.THR` (41_conv_modes R162): `CONV(8, 2, 4, THR, ZWM)` of R150. -/
def execConvI8W2O4Thr (z : Bool) (s : State) : Out := convCall ⟨.b8, .b2, .b4, .thr, z⟩ s

/-- `CONV.I2.W4.O4.THR` (41_conv_modes R163): `CONV(2, 4, 4, THR, ZWM)` of R150. -/
def execConvI2W4O4Thr (z : Bool) (s : State) : Out := convCall ⟨.b2, .b4, .b4, .thr, z⟩ s

/-- `CONV.I4.W4.O4.THR` (41_conv_modes R164): `CONV(4, 4, 4, THR, ZWM)` of R150. -/
def execConvI4W4O4Thr (z : Bool) (s : State) : Out := convCall ⟨.b4, .b4, .b4, .thr, z⟩ s

/-- `CONV.I8.W4.O4.THR` (41_conv_modes R165): `CONV(8, 4, 4, THR, ZWM)` of R150. -/
def execConvI8W4O4Thr (z : Bool) (s : State) : Out := convCall ⟨.b8, .b4, .b4, .thr, z⟩ s

/-- `CONV.I2.W8.O4.THR` (41_conv_modes R166): `CONV(2, 8, 4, THR, ZWM)` of R150. -/
def execConvI2W8O4Thr (z : Bool) (s : State) : Out := convCall ⟨.b2, .b8, .b4, .thr, z⟩ s

/-- `CONV.I4.W8.O4.THR` (41_conv_modes R167): `CONV(4, 8, 4, THR, ZWM)` of R150. -/
def execConvI4W8O4Thr (z : Bool) (s : State) : Out := convCall ⟨.b4, .b8, .b4, .thr, z⟩ s

/-- `CONV.I8.W8.O4.THR` (41_conv_modes R168): `CONV(8, 8, 4, THR, ZWM)` of R150. -/
def execConvI8W8O4Thr (z : Bool) (s : State) : Out := convCall ⟨.b8, .b8, .b4, .thr, z⟩ s

end Sys2Proof.Machine
end

