-- ==== Sys2Proof/Machine/Reserved.lean ====
section
/-! DEFINITION. The reserved MODE rows (41_conv_modes R196, R197). -/

namespace Sys2Proof.Machine

/-- `RSVD.THR.O8.20` (41_conv_modes R196): FAULT, whatever ZWM is. -/
def execRsvdThrO8x20 (_z : Bool) (s : State) : Out := reservedMode s

/-- `RSVD.THR.O8.21` (41_conv_modes R196): FAULT, whatever ZWM is. -/
def execRsvdThrO8x21 (_z : Bool) (s : State) : Out := reservedMode s

/-- `RSVD.THR.O8.22` (41_conv_modes R196): FAULT, whatever ZWM is. -/
def execRsvdThrO8x22 (_z : Bool) (s : State) : Out := reservedMode s

/-- `RSVD.THR.O8.24` (41_conv_modes R196): FAULT, whatever ZWM is. -/
def execRsvdThrO8x24 (_z : Bool) (s : State) : Out := reservedMode s

/-- `RSVD.THR.O8.25` (41_conv_modes R196): FAULT, whatever ZWM is. -/
def execRsvdThrO8x25 (_z : Bool) (s : State) : Out := reservedMode s

/-- `RSVD.THR.O8.26` (41_conv_modes R196): FAULT, whatever ZWM is. -/
def execRsvdThrO8x26 (_z : Bool) (s : State) : Out := reservedMode s

/-- `RSVD.THR.O8.28` (41_conv_modes R196): FAULT, whatever ZWM is. -/
def execRsvdThrO8x28 (_z : Bool) (s : State) : Out := reservedMode s

/-- `RSVD.THR.O8.29` (41_conv_modes R196): FAULT, whatever ZWM is. -/
def execRsvdThrO8x29 (_z : Bool) (s : State) : Out := reservedMode s

/-- `RSVD.THR.O8.2A` (41_conv_modes R196): FAULT, whatever ZWM is. -/
def execRsvdThrO8x2A (_z : Bool) (s : State) : Out := reservedMode s

/-- `RSVD.WIDTH.IB3` (41_conv_modes R197): FAULT, whatever the other fields are. -/
def execRsvdWidthIb3 (_z _fold : Bool) (_ob _wb : BitVec 2) (s : State) : Out := reservedMode s

/-- `RSVD.WIDTH.WB3` (41_conv_modes R197): FAULT, whatever the other fields are. -/
def execRsvdWidthWb3 (_z _fold : Bool) (_ob _ib : BitVec 2) (s : State) : Out := reservedMode s

/-- `RSVD.WIDTH.OB3` (41_conv_modes R197): FAULT, whatever the other fields are. -/
def execRsvdWidthOb3 (_z _fold : Bool) (_wb _ib : BitVec 2) (s : State) : Out := reservedMode s

end Sys2Proof.Machine
end

