-- ==== Sys2Proof/Machine/Dispatch.lean ====
section
/-! DEFINITION. The meaning of every instruction, one arm per constructor. -/

namespace Sys2Proof.Machine

def exec (i : Instr) (s : State) : Host.Outcome State Fault Refusal :=
  match i with
  | .convI2W2O2Thr z => Sys2Proof.Machine.execConvI2W2O2Thr z s
  | .convI4W2O2Thr z => Sys2Proof.Machine.execConvI4W2O2Thr z s
  | .convI8W2O2Thr z => Sys2Proof.Machine.execConvI8W2O2Thr z s
  | .convI2W4O2Thr z => Sys2Proof.Machine.execConvI2W4O2Thr z s
  | .convI4W4O2Thr z => Sys2Proof.Machine.execConvI4W4O2Thr z s
  | .convI8W4O2Thr z => Sys2Proof.Machine.execConvI8W4O2Thr z s
  | .convI2W8O2Thr z => Sys2Proof.Machine.execConvI2W8O2Thr z s
  | .convI4W8O2Thr z => Sys2Proof.Machine.execConvI4W8O2Thr z s
  | .convI8W8O2Thr z => Sys2Proof.Machine.execConvI8W8O2Thr z s
  | .convI2W2O4Thr z => Sys2Proof.Machine.execConvI2W2O4Thr z s
  | .convI4W2O4Thr z => Sys2Proof.Machine.execConvI4W2O4Thr z s
  | .convI8W2O4Thr z => Sys2Proof.Machine.execConvI8W2O4Thr z s
  | .convI2W4O4Thr z => Sys2Proof.Machine.execConvI2W4O4Thr z s
  | .convI4W4O4Thr z => Sys2Proof.Machine.execConvI4W4O4Thr z s
  | .convI8W4O4Thr z => Sys2Proof.Machine.execConvI8W4O4Thr z s
  | .convI2W8O4Thr z => Sys2Proof.Machine.execConvI2W8O4Thr z s
  | .convI4W8O4Thr z => Sys2Proof.Machine.execConvI4W8O4Thr z s
  | .convI8W8O4Thr z => Sys2Proof.Machine.execConvI8W8O4Thr z s
  | .convI2W2O2Icn z => Sys2Proof.Machine.execConvI2W2O2Icn z s
  | .convI4W2O2Icn z => Sys2Proof.Machine.execConvI4W2O2Icn z s
  | .convI8W2O2Icn z => Sys2Proof.Machine.execConvI8W2O2Icn z s
  | .convI2W4O2Icn z => Sys2Proof.Machine.execConvI2W4O2Icn z s
  | .convI4W4O2Icn z => Sys2Proof.Machine.execConvI4W4O2Icn z s
  | .convI8W4O2Icn z => Sys2Proof.Machine.execConvI8W4O2Icn z s
  | .convI2W8O2Icn z => Sys2Proof.Machine.execConvI2W8O2Icn z s
  | .convI4W8O2Icn z => Sys2Proof.Machine.execConvI4W8O2Icn z s
  | .convI8W8O2Icn z => Sys2Proof.Machine.execConvI8W8O2Icn z s
  | .convI2W2O4Icn z => Sys2Proof.Machine.execConvI2W2O4Icn z s
  | .convI4W2O4Icn z => Sys2Proof.Machine.execConvI4W2O4Icn z s
  | .convI8W2O4Icn z => Sys2Proof.Machine.execConvI8W2O4Icn z s
  | .convI2W4O4Icn z => Sys2Proof.Machine.execConvI2W4O4Icn z s
  | .convI4W4O4Icn z => Sys2Proof.Machine.execConvI4W4O4Icn z s
  | .convI8W4O4Icn z => Sys2Proof.Machine.execConvI8W4O4Icn z s
  | .convI2W8O4Icn z => Sys2Proof.Machine.execConvI2W8O4Icn z s
  | .convI4W8O4Icn z => Sys2Proof.Machine.execConvI4W8O4Icn z s
  | .convI8W8O4Icn z => Sys2Proof.Machine.execConvI8W8O4Icn z s
  | .convI2W2O8Icn z => Sys2Proof.Machine.execConvI2W2O8Icn z s
  | .convI4W2O8Icn z => Sys2Proof.Machine.execConvI4W2O8Icn z s
  | .convI8W2O8Icn z => Sys2Proof.Machine.execConvI8W2O8Icn z s
  | .convI2W4O8Icn z => Sys2Proof.Machine.execConvI2W4O8Icn z s
  | .convI4W4O8Icn z => Sys2Proof.Machine.execConvI4W4O8Icn z s
  | .convI8W4O8Icn z => Sys2Proof.Machine.execConvI8W4O8Icn z s
  | .convI2W8O8Icn z => Sys2Proof.Machine.execConvI2W8O8Icn z s
  | .convI4W8O8Icn z => Sys2Proof.Machine.execConvI4W8O8Icn z s
  | .convI8W8O8Icn z => Sys2Proof.Machine.execConvI8W8O8Icn z s
  | .rsvdThrO8x20 z => Sys2Proof.Machine.execRsvdThrO8x20 z s
  | .rsvdThrO8x21 z => Sys2Proof.Machine.execRsvdThrO8x21 z s
  | .rsvdThrO8x22 z => Sys2Proof.Machine.execRsvdThrO8x22 z s
  | .rsvdThrO8x24 z => Sys2Proof.Machine.execRsvdThrO8x24 z s
  | .rsvdThrO8x25 z => Sys2Proof.Machine.execRsvdThrO8x25 z s
  | .rsvdThrO8x26 z => Sys2Proof.Machine.execRsvdThrO8x26 z s
  | .rsvdThrO8x28 z => Sys2Proof.Machine.execRsvdThrO8x28 z s
  | .rsvdThrO8x29 z => Sys2Proof.Machine.execRsvdThrO8x29 z s
  | .rsvdThrO8x2A z => Sys2Proof.Machine.execRsvdThrO8x2A z s
  | .rsvdWidthIb3 z fold ob wb => Sys2Proof.Machine.execRsvdWidthIb3 z fold ob wb s
  | .rsvdWidthWb3 z fold ob ib => Sys2Proof.Machine.execRsvdWidthWb3 z fold ob ib s
  | .rsvdWidthOb3 z fold wb ib => Sys2Proof.Machine.execRsvdWidthOb3 z fold wb ib s
  | .start => Sys2Proof.Machine.execStart s
  | .cmdNop0 => Sys2Proof.Machine.execCmdNop0 s
  | .cmdRsvd2 => Sys2Proof.Machine.execCmdRsvd2 s
  | .cmdRsvd3 => Sys2Proof.Machine.execCmdRsvd3 s
  | .cmdRsvd4 => Sys2Proof.Machine.execCmdRsvd4 s
  | .cmdRsvd5 => Sys2Proof.Machine.execCmdRsvd5 s
  | .cmdRsvd6 => Sys2Proof.Machine.execCmdRsvd6 s
  | .cmdRsvd7 => Sys2Proof.Machine.execCmdRsvd7 s
  | .cmdRsvd8 => Sys2Proof.Machine.execCmdRsvd8 s
  | .cmdRsvd9 => Sys2Proof.Machine.execCmdRsvd9 s
  | .cmdRsvd10 => Sys2Proof.Machine.execCmdRsvd10 s
  | .cmdRsvd11 => Sys2Proof.Machine.execCmdRsvd11 s
  | .cmdRsvd12 => Sys2Proof.Machine.execCmdRsvd12 s
  | .cmdRsvd13 => Sys2Proof.Machine.execCmdRsvd13 s
  | .cmdRsvd14 => Sys2Proof.Machine.execCmdRsvd14 s
  | .cmdRsvd15 => Sys2Proof.Machine.execCmdRsvd15 s

end Sys2Proof.Machine
end

