-- ==== Sys2Proof/Machine/HostOps.lean ====
section
/-! DEFINITION. The host's operations on registers, data memory and reset (10_state R40 to R42, 20_memory R83,
70_reset R330 to R333), the block's turn, and what the machine takes next: an instruction to execute, or an operation
that is no instruction. -/

namespace Sys2Proof.Machine

/-- The constants of the call in progress: MODE as it stands, constant while BUSY (10_state R34). -/
def callTag (s : State) : Option Tag :=
  match modeDecode s.regs.modeW with
  | .legal t => some t
  | .reserved _ => none

/-- Whether an address lies in a region of the call in progress (20_memory R83). -/
def inCallRegion (s : State) (a : Nat) : Bool :=
  match callTag s with
  | some t => (callSpans t s.regs).any (fun q => q.has a)
  | none => false

/-- Whether an address lies in OUT or COLBUF of the call in progress (20_memory R83). -/
def inWrittenRegion (s : State) (a : Nat) : Bool :=
  match callTag s with
  | some t => (outSpan t s.regs).has a || (colbufSpan s.regs).has a
  | none => false

/-- Whether a read of `off` returns a STATUS other than BUSY: it shows the host every write of the calls so far
(20_memory R81 (b)). -/
def showsCompletion (s : State) (off : Nat) : Bool := off == 0x04 && s.status != .busy

/-- A host read of a register: no side effect on the block (10_state R40, R41); what the host may rely on in region OUT
is the model's own record (20_memory R81 (b), 70_reset R341; log 7). -/
def hostRead (off width : Nat) (s : State) : Out :=
  if regAccessOk off width then
    .next { s with rdata := readReg s off, unseen := if showsCompletion s off then [] else s.unseen }
  else .refused .badRegAccess

/-- Whether the byte a host read returns is unspecified: OUT or COLBUF of the call in progress (20_memory R83), or OUT of
a call accepted since the host last read a STATUS other than BUSY (R81 (b), 70_reset R341). -/
def hiddenFromHost (s : State) (a : Nat) : Bool :=
  s.unseen.any (fun q => q.has a) || (decide (s.status = .busy) && inWrittenRegion s a)

/-- A host read of a byte of data memory; a hidden byte is a fresh draw (20_memory R81, R83, 93 U17; 70_reset R341;
log 7). -/
def hostMemRead (a : Addr) (s : State) : Out :=
  if addrBacked s.holes a.toNat = false then .fault .unbackedAddress
  else if hiddenFromHost s a.toNat then
    .next { s with rdata := (Config.freeByte s.draws a.toNat).setWidth 32, draws := s.draws + 1 }
  else .next { s with rdata := (s.mem.read a.toNat).setWidth 32 }

/-- A host write of a byte of data memory: outside the contract in a region of the call while BUSY (20_memory R83). -/
def hostMemWrite (a : Addr) (v : Byte) (s : State) : Out :=
  if addrBacked s.holes a.toNat = false then .fault .unbackedAddress
  else if s.status = .busy ∧ inCallRegion s a.toNat = true then .refused .hostWriteDuringCall
  else .next { s with mem := s.mem.write a.toNat v }

/-- Memory after a reset: unchanged when not BUSY (70_reset R331); OUT and COLBUF of the call in progress unspecified
when BUSY (R333). -/
def memAfterReset (s : State) : Memory :=
  if s.status = .busy then
    match callTag s with
    | some t =>
      (s.mem.forgetSpan s.draws (outSpan t s.regs).base (outSpan t s.regs).size).forgetSpan
        s.draws (colbufSpan s.regs).base (colbufSpan s.regs).size
    | none => s.mem
  else s.mem

/-- Reset, from any STATE (70_reset R330 to R333). -/
def resetBlock (s : State) : State := { resetRegisters s with mem := memAfterReset s }

/-- The block's turn: its one enabled micro-step while BUSY, nothing otherwise (40_host_commands R128; R136). -/
def blockStep (s : State) : Out :=
  if s.status = .busy then
    match modeDecode s.regs.modeW with
    | .legal t => .next (microStep t s)
    | .reserved _ => .refused .busyReservedMode
  else .next s

/-- `POLL` of 30_encoding R103: while STATUS reads BUSY the block takes its turn and the host reads again; the read that
returns another STATE ends it (log 4). `s` still has the POLL pending, `rest` is what follows it. -/
def hostPoll (rest : List HostOp) (s : State) : Out :=
  if s.status = .busy then blockStep s else hostRead 0x04 4 { s with pending := rest }

/-- `MEM8` of 30_encoding R102: host stores of bytes at ascending addresses. -/
def storeBytes (a : Addr) (bytes : List Byte) : List HostOp :=
  match bytes with
  | [] => []
  | b :: rest => .memWr a b :: storeBytes (a + 1#32) rest

/-- `MEM32` of 30_encoding R102: host stores of 32-bit little-endian words. -/
def storeWords (a : Addr) (ws : List Word) : List HostOp := storeBytes a (ws.flatMap bytesOfWord)

/-- What the machine takes next: an instruction with the state it runs in, or the outcome of an operation that is no
instruction. -/
inductive Fetched where
  | run (i : Instr) (s : State)
  | did (o : Out)

/-- Taking the host's next operation, or the block's turn when the host has none pending (log 3). A write to offset
0x00 delivers a CMD word (30_encoding R104); a CALL writes MODE, delivers the MODE word and leaves a POLL
to do (R103). -/
def fetch (s : State) : Fetched :=
  match s.pending with
  | [] => .did (blockStep s)
  | .rd off width :: rest => .did (hostRead off width { s with pending := rest })
  | .wr off width v :: rest =>
    if regAccessOk off width = false then .did (.refused .badRegAccess)
    else if off = 0 then .run (decode .cmd v) { s with pending := rest }
    else .did (.next (writeReg { s with pending := rest } off v))
  | .call w :: rest => .run (decode .mode w) (writeReg { s with pending := .poll :: rest } 0x08 w)
  | .poll :: rest => .did (hostPoll rest s)
  | .memRd a :: rest => .did (hostMemRead a { s with pending := rest })
  | .memWr a v :: rest => .did (hostMemWrite a v { s with pending := rest })
  | .reset :: rest => .did (.next (resetBlock { s with pending := rest }))
  | .blockTurn :: rest => .did (blockStep { s with pending := rest })

/-- The host operation that delivers a table word (30_encoding R103, R104; log 5). -/
def deliver (w : Word) : HostOp :=
  match tablePort w with
  | .cmd => .wr 0 4 w
  | .mode => .call w

end Sys2Proof.Machine
end

