-- ==== Sys2Proof/Machine/Step.lean ====
section
/-! DEFINITION. One step of the machine: what `fetch` takes next is executed if it is an instruction, done otherwise. -/

namespace Sys2Proof.Machine

/-- One step (00_scope R14: the host or the block; log 3). -/
def step (s : State) : Host.Outcome State Fault Refusal :=
  match fetch s with
  | .run i s' => exec i s'
  | .did o => o

/-- The state whose next step runs the table word: the host's next operation delivers it (log 3, 5). -/
def State.withFetchWord (s : State) (nbits w : Nat) : State :=
  { s with pending := deliver (tableWord nbits w) :: s.pending }

end Sys2Proof.Machine
end

