-- ==== Sys2Proof/Machine/Conv.lean ====
section
/-! DEFINITION. The whole call as one function (40_host_commands R138): what every level of the output tensor is, in
terms of the configuration and the memory at START alone. The machine does not use it; claims compare the machine's
micro-steps with it. -/

namespace Sys2Proof.Machine

/-- The exact sum of a channel's products with a position's window (40_host_commands R138). -/
def dotSum (t : Tag) (r : Regs) (m : Memory) (pos c : Nat) : Int :=
  ((List.range r.len).map (fun j => corrWeight t r m c j * windowElem t r m pos j)).sum

/-- `Acc(pos, c)` (40_host_commands R138). -/
def convAcc (t : Tag) (r : Regs) (m : Memory) (pos c : Nat) : Word := word32 (bias r m c + dotSum t r m pos c)

/-- `Level(pos, c)` (40_host_commands R138). -/
def convLevel (t : Tag) (r : Regs) (m : Memory) (pos c : Nat) : Nat := fold t r m c (convAcc t r m pos c)

/-- The sum of a channel's products with any column (43_dot_product R248). -/
def columnSum (t : Tag) (r : Regs) (m : Memory) (c : Nat) (col : List Elem) : Int :=
  ((List.range r.len).map (fun j => corrWeight t r m c j * colElem col j)).sum

end Sys2Proof.Machine
end

