-- ==== Sys2Proof/Safety.lean ====
section
/-! DEFINITION. What counts as a safe state of the machine, in the terms claims use: data memory in canonical form and,
while BUSY, a legal launched call whose sequencer and pack registers are where 40_host_commands R137 and
44_requant_pack R282 say. -/

namespace Sys2Proof.Machine

/-- The ranges of `SEQ` in a BUSY state, word for word those of 40_host_commands R137. -/
def SeqRanges (s : State) : Prop :=
  s.seq.pos ≤ s.regs.n ∧
  (s.seq.phase = .gather → s.seq.pos < s.regs.n ∧ s.seq.fill < 2) ∧
  (s.seq.phase = .dot2 → s.seq.fill = 2) ∧
  (s.seq.phase = .dot1 → s.seq.fill = 1 ∧ s.seq.pos = s.regs.n)

/-- Both pack registers hold no level (44_requant_pack R282). -/
def PacksClear (s : State) : Prop := s.pk0 = 0#8 ∧ s.pk1 = 0#8

/-- Before a GATHER: a parity that pairs positions (40_host_commands R135), column 0 gathered if FILL is 1. -/
def GatherReady (s : State) : Prop :=
  s.seq.pos < s.regs.n ∧ s.seq.fill = s.seq.pos % 2 ∧ PacksClear s ∧
  (s.seq.fill = 1 → s.col0.length = s.regs.len)

/-- Before a DOT2: two whole columns, an even channel, and packs that hold no level at a byte boundary. -/
def Dot2Ready (t : Tag) (s : State) : Prop :=
  s.seq.fill = 2 ∧ 2 ≤ s.seq.pos ∧ s.seq.pos ≤ s.regs.n ∧ s.seq.pos % 2 = 0 ∧
  s.seq.chi < s.regs.co ∧ s.seq.chi % 2 = 0 ∧
  s.col0.length = s.regs.len ∧ s.col1.length = s.regs.len ∧
  (s.seq.chi % t.ob.epb = 0 → PacksClear s)

/-- Before a DOT1: the leftover column of an odd number of positions. -/
def Dot1Ready (t : Tag) (s : State) : Prop :=
  s.seq.fill = 1 ∧ s.seq.pos = s.regs.n ∧ s.regs.n % 2 = 1 ∧ s.seq.chi < s.regs.co ∧
  s.col0.length = s.regs.len ∧ s.pk1 = 0#8 ∧ (s.seq.chi % t.ob.epb = 0 → s.pk0 = 0#8)

/-- Before FINISH: every position consumed, both pack registers 0 (40_host_commands R136). -/
def FinishReady (s : State) : Prop := s.seq.pos = s.regs.n ∧ s.seq.fill = 0 ∧ PacksClear s

/-- The sequencer of a BUSY block stands at a point of a call. -/
def SeqReady (t : Tag) (s : State) : Prop :=
  match s.seq.phase with
  | .gather => GatherReady s
  | .dot2 => Dot2Ready t s
  | .dot1 => Dot1Ready t s
  | .finish => FinishReady s

/-- Everything START asks of a launch (40_host_commands R122, R125, R126). -/
def Launchable (t : Tag) (s : State) : Prop :=
  modeDecode s.regs.modeW = .legal t ∧ sizeOk t s.regs = true ∧ inContract t s.regs s.mem = true ∧
  premiseH5 t s.regs s.holes = true

/-- A state of a legal call in progress. -/
def CallOk (t : Tag) (s : State) : Prop := Launchable t s ∧ SeqReady t s

/-- The invariant of the machine: canonical memory, and a BUSY block is inside a legal call. -/
def Inv (s : State) : Prop := s.mem.wf = true ∧ (s.status = .busy → ∃ t, CallOk t s)

/-- An address no call of this configuration writes: outside OUT and COLBUF (20_memory R76). -/
def Untouched (t : Tag) (r : Regs) (a : Nat) : Prop := (outSpan t r).has a = false ∧ (colbufSpan r).has a = false

/-- Every field but the ones a call works on is as it was. -/
def SameOutside (s u : State) : Prop :=
  u.regs = s.regs ∧ u.holes = s.holes ∧ u.pending = s.pending ∧ u.rdata = s.rdata

/-- The next step is the block's turn, and `rest` is what the host has pending after it: nothing is pending, the host lets
the block take one micro-step, or the host polls a BUSY block (log 3, 4). -/
def TurnLeaves (s : State) (rest : List HostOp) : Prop :=
  (s.pending = [] ∧ rest = []) ∨ s.pending = .blockTurn :: rest ∨
  (s.status = .busy ∧ rest = s.pending ∧ ∃ ops, s.pending = .poll :: ops)

/-- The bits of a register a write stores (10_state R28): the defined fields, none of a register that is not RW. -/
def definedBits (off : Nat) : Word :=
  match off with
  | 0x08 => 0x000000FF#32
  | 0x0C => 0x0000FFFF#32
  | 0x10 => 0x0000FFFF#32
  | 0x14 => 0x0000FFFF#32
  | 0x18 => 0x000000FF#32
  | 0x1C => 0xFFFFFFFF#32
  | 0x20 => 0x000000FF#32
  | 0x24 => 0x00FFFFFF#32
  | 0x28 => 0xFFFFFFFF#32
  | 0x2C => 0xFFFFFFFF#32
  | 0x30 => 0xFFFFFFFF#32
  | 0x34 => 0xFFFFFFFF#32
  | 0x38 => 0xFFFFFFFF#32
  | 0x3C => 0xFFFFFFFF#32
  | 0x40 => 0xFFFFFFFF#32
  | 0x44 => 0xFFFFFFFF#32
  | 0x48 => 0xFFFFFFFF#32
  | _ => 0#32

end Sys2Proof.Machine
end

