-- ==== Sys2Proof/Certificates/Slice0/Obligations.lean ====
section
/-! DEFINITION. The statements for the provers. Each docstring names the rule of spec/ it formalises; where a statement
rests on a choice of the model it says so and names the log entry. -/

open Sys2Proof Sys2Proof.Machine

/-! ## Encoding -/

/-- Decode and encode agree, for all 73 rows and every operand their encodings admit (30_encoding R91, R96 to R98;
the priority of the reserved-width rows is log 16). -/
def Obligations.DecodeOfEncodeIsTheInstruction : Prop :=
  ∀ i : Instr, i.wf = true → decode (encode i).1 (encode i).2 = i

/-- Every MODE word decodes to a well-formed instruction whose encoding is the word's stored bits 7:0
(30_encoding R91: bits 31:8 cannot be set). -/
def Obligations.ModeWordsKeepEveryStoredBit : Prop :=
  ∀ w : Word, (decode .mode w).wf = true ∧ encode (decode .mode w) = (.mode, w &&& 0x000000FF#32)

/-- Every CMD word decodes by OP alone: its encoding is the word's bits 3:0 (30_encoding R91, R98). -/
def Obligations.CommandWordsReadOpOnly : Prop :=
  ∀ w : Word, (decode .cmd w).wf = true ∧ encode (decode .cmd w) = (.cmd, w &&& 0x0000000F#32)

/-- The decode of 30_encoding R92: the width codes first, then THR with 8-bit output, else the five constants. -/
def Obligations.ModeDecodeFollowsTheOrder : Prop :=
  ∀ w : Word,
    (modeDecode w = .reserved .widthCode ↔ modeIb w = 3#2 ∨ modeWb w = 3#2 ∨ modeOb w = 3#2) ∧
    (modeDecode w = .reserved .thrOut8 ↔
      modeIb w ≠ 3#2 ∧ modeWb w ≠ 3#2 ∧ modeFold w = false ∧ modeOb w = 2#2) ∧
    (∀ t : Tag, modeDecode w = .legal t ↔
      Width.ofCode (modeIb w) = some t.ib ∧ Width.ofCode (modeWb w) = some t.wb ∧
      Width.ofCode (modeOb w) = some t.ob ∧ t.fold = FoldPolicy.ofBit (modeFold w) ∧ t.zwm = modeZwm w ∧
      ¬ (t.fold = .thr ∧ t.ob = .b8))

/-- The opcode map and the decode of START agree: the instruction a MODE word names has the constants START launches
with, and a reserved row exactly when START faults (30_encoding R92, R96). -/
def Obligations.OpcodeMapAgreesWithModeDecode : Prop :=
  ∀ (w : Word) (t : Tag), modeDecode w = .legal t ↔ (decode .mode w).tag? = some t

/-- 41_conv_modes R198: 18 THR and 27 ICN opcodes, 9 and 74 reserved values, 128 in all. -/
def Obligations.OpcodeCountsAddUp : Prop :=
  let words := (List.range 128).map (fun n => modeDecode (BitVec.ofNat 32 n))
  (words.countP fun d => match d with | .legal t => t.fold == .thr | .reserved _ => false) = 18 ∧
  (words.countP fun d => match d with | .legal t => t.fold == .icn | .reserved _ => false) = 27 ∧
  words.count (.reserved .thrOut8) = 9 ∧ words.count (.reserved .widthCode) = 74 ∧ words.length = 128

/-- A few words of the opcode map, written out from 30_encoding R96 and R97. -/
def Obligations.SampleWordsDecodeRight : Prop :=
  decode .mode 0x00000055#32 = .convI4W4O4Icn false ∧ decode .mode 0x000000EA#32 = .convI8W8O8Icn true ∧
  decode .mode 0x00000082#32 = .convI8W2O2Thr true ∧ decode .mode 0x0000002A#32 = .rsvdThrO8x2A false ∧
  decode .mode 0x00000003#32 = .rsvdWidthIb3 false false 0#2 0#2 ∧ decode .cmd 0xABCDEF01#32 = .start ∧
  decode .cmd 0xFFFFFFF2#32 = .cmdRsvd2

/-! ## A step -/

/-- A step runs the decoded instruction: a write to offset 0x00 delivers a CMD word, a CALL line of the host notation
writes MODE, delivers the MODE word and leaves the POLL to do (30_encoding R103, R104); the block's turn, in whichever of
its three forms, is one step of the block (the list of host operations is log 3, the whole call log 4). -/
def Obligations.StepRunsTheDecodedInstruction : Prop :=
  ∀ (s : State) (w : Word) (rest : List HostOp),
    (s.pending = .wr 0 4 w :: rest → step s = exec (decode .cmd w) { s with pending := rest }) ∧
    (s.pending = .call w :: rest →
      step s = exec (decode .mode w) (writeReg { s with pending := .poll :: rest } 0x08 w)) ∧
    (TurnLeaves s rest → step s = blockStep { s with pending := rest })

/-- The step after `withFetchWord` runs exactly the instruction `decodeTableWord` reads (log 5 for the port). -/
def Obligations.FetchWordRunsItsInstruction : Prop :=
  ∀ (s : State) (nbits w : Nat), ∃ i, decodeTableWord nbits w = some i ∧
    step (s.withFetchWord nbits w) =
      match tablePort (tableWord nbits w) with
      | .cmd => exec i s
      | .mode => exec i (writeReg { s with pending := .poll :: s.pending } 0x08 (tableWord nbits w))

/-! ## Registers -/

/-- 10_state R40, R42: a write to a RW register stores the defined fields, the reserved bits read 0, and nothing else
changes. -/
def Obligations.RegisterWriteReadsBack : Prop :=
  ∀ (s : State) (off : Nat) (v : Word) (rest : List HostOp),
    s.status ≠ .busy → 0x08 ≤ off → off ≤ 0x48 → off % 4 = 0 → s.pending = .wr off 4 v :: rest →
    ∃ u, step s = .next u ∧ u = { s with pending := rest, regs := u.regs } ∧
      readReg u off = v &&& definedBits off ∧ ∀ off', off' ≠ off → readReg u off' = readReg s off'

/-- 10_state R40 to R42: a write to STATUS or a reserved offset stores nothing, in every STATE; CMD and reserved offsets
read 0. -/
def Obligations.UnstoredOffsetsIgnoreWrites : Prop :=
  ∀ (s : State) (off : Nat) (v : Word) (rest : List HostOp),
    (off = 0x04 ∨ (0x4C ≤ off ∧ off < 0x100 ∧ off % 4 = 0) → s.pending = .wr off 4 v :: rest →
      step s = .next { s with pending := rest }) ∧
    (off = 0x00 ∨ 0x4C ≤ off → readReg s off = 0#32)

/-- 10_state R34: while BUSY a host write to any register, CMD included, keeps every value and takes no command. -/
def Obligations.BusyIgnoresEveryRegisterWrite : Prop :=
  ∀ (s : State) (off : Nat) (v : Word) (rest : List HostOp),
    s.status = .busy → off < 0x100 → off % 4 = 0 → s.pending = .wr off 4 v :: rest →
    step s = .next { s with pending := rest }

/-- 10_state R41: a read is allowed in every STATE, returns the register's value and changes no state of the block. A read
of STATUS other than BUSY, and the POLL that repeats it (30_encoding R103), clear the model's record of the OUT regions
the host may not rely on yet (20_memory R81 (b); log 4, 7). -/
def Obligations.RegisterReadHasNoSideEffect : Prop :=
  ∀ (s : State) (off : Nat) (rest : List HostOp),
    (off < 0x100 → off % 4 = 0 → s.pending = .rd off 4 :: rest →
      step s = .next { s with pending := rest, rdata := readReg s off,
                              unseen := if off = 0x04 ∧ s.status ≠ .busy then [] else s.unseen }) ∧
    (s.status ≠ .busy → s.pending = .poll :: rest →
      step s = .next { s with pending := rest, rdata := readReg s 0x04, unseen := [] }) ∧
    (s.status = .busy → s.pending = .poll :: rest → step s = blockStep s)

/-- 10_state R40: an access of another width or alignment, or outside the block (93 U13), is refused. -/
def Obligations.BadRegisterAccessIsRefused : Prop :=
  ∀ (s : State) (off width : Nat) (v : Word) (rest : List HostOp),
    ¬ (width = 4 ∧ off % 4 = 0 ∧ off < 0x100) →
    s.pending = .rd off width :: rest ∨ s.pending = .wr off width v :: rest →
    step s = .refused .badRegAccess

/-- 10_state R30: STATUS reads its STATE code, bits 31:3 are 0, and 5 to 7 are never read. -/
def Obligations.StatusReadsItsCode : Prop :=
  ∀ s : State, readReg s 0x04 =
    (match s.status with
    | .idle => 0#32
    | .busy => 1#32
    | .done => 2#32
    | .sizeMismatch => 3#32
    | .fault => 4#32)

/-- 30_encoding R100: no field of PAD or ZP is scaled or moved; each is the zero-extended bits of the register. -/
def Obligations.PackedFieldsAreTheirBits : Prop :=
  ∀ (r : Regs) (v : Word),
    (r.write 0x1C v).pt = v.toNat % 256 ∧ (r.write 0x1C v).pb = v.toNat / 256 % 256 ∧
    (r.write 0x1C v).pl = v.toNat / 65536 % 256 ∧ (r.write 0x1C v).pr = v.toNat / 16777216 ∧
    (r.write 0x24 v).zIn = v.toNat % 256 ∧ (r.write 0x24 v).zW = v.toNat / 256 % 256 ∧
    (r.write 0x24 v).zOut = v.toNat / 65536 % 256

/-! ## Data memory -/

/-- A host write of a backed byte, outside the regions of a call in progress, is read back and leaves every other byte
and the rest of the machine alone (10_state R43, 20_memory R78, R83). -/
def Obligations.HostMemoryWriteIsReadBack : Prop :=
  ∀ (s : State) (a : Addr) (v : Byte) (rest : List HostOp),
    s.mem.wf = true → addrBacked s.holes a.toNat = true →
    (s.status = .busy → inCallRegion { s with pending := rest } a.toNat = false) →
    s.pending = .memWr a v :: rest →
    ∃ u, step s = .next u ∧ u = { s with pending := rest, mem := u.mem } ∧ u.mem.wf = true ∧
      u.mem.read a.toNat = v ∧ ∀ b, b ≠ a.toNat → u.mem.read b = s.mem.read b

/-- Host accesses to data memory (10_state R43; 20_memory R78, R81, R83; 70_reset R341). A byte without storage faults
(log 18). A read returns a free draw (log 7) in OUT of a call the host has not seen complete, and while BUSY in OUT or
COLBUF; every other read returns the byte. A write while BUSY to any region of the call is refused; every other write is
made. Nothing else changes. -/
def Obligations.HostAccessesToDataMemory : Prop :=
  ∀ (s : State) (a : Addr) (v : Byte) (rest : List HostOp),
    (addrBacked s.holes a.toNat = false → s.pending = .memRd a :: rest ∨ s.pending = .memWr a v :: rest →
      step s = .fault .unbackedAddress) ∧
    (addrBacked s.holes a.toNat = true → s.pending = .memRd a :: rest →
      (s.unseen.any (fun q => q.has a.toNat) = true ∨
        (s.status = .busy ∧ ∃ t, modeDecode s.regs.modeW = .legal t ∧
          ((outSpan t s.regs).has a.toNat = true ∨ (colbufSpan s.regs).has a.toNat = true)) →
        step s = .next { s with pending := rest, rdata := (Config.freeByte s.draws a.toNat).setWidth 32,
                                draws := s.draws + 1 }) ∧
      (s.unseen.any (fun q => q.has a.toNat) = false →
        (s.status = .busy → ∀ t, modeDecode s.regs.modeW = .legal t →
          (outSpan t s.regs).has a.toNat = false ∧ (colbufSpan s.regs).has a.toNat = false) →
        step s = .next { s with pending := rest, rdata := (s.mem.read a.toNat).setWidth 32 })) ∧
    (addrBacked s.holes a.toNat = true → s.pending = .memWr a v :: rest →
      (∀ t, s.status = .busy → modeDecode s.regs.modeW = .legal t →
        (callSpans t s.regs).any (fun q => q.has a.toNat) = true → step s = .refused .hostWriteDuringCall) ∧
      ((s.status = .busy → ∀ t, modeDecode s.regs.modeW = .legal t →
          (callSpans t s.regs).any (fun q => q.has a.toNat) = false) →
        step s = .next { s with pending := rest, mem := s.mem.write a.toNat v }))

/-- The two primitives of 20_memory R61: the byte at the lowest address is the least significant, addresses modulo
`2^32`; what `MemWrite` writes `MemRead` reads back, and no other byte changes; the signed reads are two's complement. -/
def Obligations.MemReadAndMemWriteAreLittleEndian : Prop :=
  (∀ (m : Memory) (addr n : Nat),
    memRead m addr n =
      ((List.range n).map (fun i => (m.read ((addr + i) % 4294967296)).toNat * 256 ^ i)).sum ∧
    memRead m addr n < 256 ^ n) ∧
  (∀ (m : Memory) (addr n v : Nat), m.wf = true → n ≤ 4294967296 →
    (memWrite m addr n v).wf = true ∧
    (∀ i, i < n → ((memWrite m addr n v).read ((addr + i) % 4294967296)).toNat = v / 256 ^ i % 256) ∧
    (∀ b, (∀ i, i < n → b ≠ (addr + i) % 4294967296) → (memWrite m addr n v).read b = m.read b) ∧
    memRead (memWrite m addr n v) addr n = v % 256 ^ n) ∧
  (∀ (m : Memory) (addr : Nat),
    memReadS8 m addr = (if memRead m addr 1 < 128 then (memRead m addr 1 : Int) else memRead m addr 1 - 256) ∧
    memReadS16 m addr = (if memRead m addr 2 < 32768 then (memRead m addr 2 : Int) else memRead m addr 2 - 65536) ∧
    memReadS32 m addr =
      (if memRead m addr 4 < 2147483648 then (memRead m addr 4 : Int) else memRead m addr 4 - 4294967296))

/-- 20_memory R65: packing inverts unpacking on every byte, unpacking inverts packing on every element vector, and the
output repacker builds bytes with this function. -/
def Obligations.PackAndUnpackAreInverse : Prop :=
  (∀ (b : Width) (B : Byte), packByte b ((List.range b.epb).map (fun i => byteElem b i B)) = B.toNat) ∧
  (∀ (b : Width) (v : List Nat), v.length = b.epb → (∀ x ∈ v, x < 2 ^ b.bits) →
    packByte b v < 256 ∧
    (List.range b.epb).map (fun i => byteElem b i (BitVec.ofNat 8 (packByte b v))) = v ∧
    (List.range b.epb).foldl (fun pk c => packOr b pk c (v.getD c 0)) 0#8 = BitVec.ofNat 8 (packByte b v))

/-! ## START, the commands and the reserved rows -/

/-- 40_host_commands R121: the fifteen reserved commands do nothing, in every STATE. -/
def Obligations.ReservedCommandsDoNothing : Prop :=
  ∀ (i : Instr) (s : State),
    i ∈ [Instr.cmdNop0, .cmdRsvd2, .cmdRsvd3, .cmdRsvd4, .cmdRsvd5, .cmdRsvd6, .cmdRsvd7, .cmdRsvd8, .cmdRsvd9,
      .cmdRsvd10, .cmdRsvd11, .cmdRsvd12, .cmdRsvd13, .cmdRsvd14, .cmdRsvd15] → exec i s = .next s

/-- 41_conv_modes R196, R197: each of the twelve reserved rows, with every value of its operands, writes FAULT to STATE
and changes nothing else, in the STATEs a START is acted on. -/
def Obligations.ReservedModesRaiseFault : Prop :=
  ∀ (s : State) (z fold : Bool) (x y : BitVec 2) (i : Instr),
    i ∈ [Instr.rsvdThrO8x20 z, .rsvdThrO8x21 z, .rsvdThrO8x22 z, .rsvdThrO8x24 z, .rsvdThrO8x25 z, .rsvdThrO8x26 z,
      .rsvdThrO8x28 z, .rsvdThrO8x29 z, .rsvdThrO8x2A z, .rsvdWidthIb3 z fold x y, .rsvdWidthWb3 z fold x y,
      .rsvdWidthOb3 z fold x y] →
    s.status = .idle ∨ s.status = .done ∨ s.status = .sizeMismatch → exec i s = .next { s with status := .fault }

/-- 40_host_commands R124, with the order of 60_exceptions R304: START in a STATE it is acted on answers FAULT for a
reserved MODE whatever the channel counts are, SIZE_MISMATCH for failing counts, and STATE is all that changes. -/
def Obligations.RejectedStartChangesOnlyState : Prop :=
  ∀ s : State, s.status = .idle ∨ s.status = .done ∨ s.status = .sizeMismatch →
    (∀ q, modeDecode s.regs.modeW = .reserved q → exec .start s = .next { s with status := .fault }) ∧
    (∀ t, modeDecode s.regs.modeW = .legal t →
      ¬ (s.regs.ci % (8 / t.ib.bits) = 0 ∧ s.regs.ci % (8 / t.wb.bits) = 0 ∧ s.regs.co % (8 / t.ob.bits) = 0 ∧
        s.regs.co % 2 = 0) →
      exec .start s = .next { s with status := .sizeMismatch })

/-- The same size check for the 45 convolutions issued as whole calls (41_conv_modes R150; 40_host_commands R125). -/
def Obligations.ConvolutionsReportSizeMismatch : Prop :=
  ∀ (i : Instr) (t : Tag) (s : State), i.tag? = some t →
    s.status = .idle ∨ s.status = .done ∨ s.status = .sizeMismatch →
    ¬ (s.regs.ci % (8 / t.ib.bits) = 0 ∧ s.regs.ci % (8 / t.wb.bits) = 0 ∧ s.regs.co % (8 / t.ob.bits) = 0 ∧
      s.regs.co % 2 = 0) →
    exec i s = .next { s with status := .sizeMismatch }

/-- 40_host_commands R127: START inside the contract is accepted; the working state it sets, what it leaves alone, and
region COLBUF unspecified from this step on. The free bytes and their draw number are the model's choice (log 6), as is
the record that the host has not seen OUT complete (log 7). -/
def Obligations.StartIsAccepted : Prop :=
  ∀ (s : State) (t : Tag), s.mem.wf = true → s.status = .idle ∨ s.status = .done ∨ s.status = .sizeMismatch →
    Launchable t s →
    ∃ u, exec .start s = .next u ∧
      u = { s with status := .busy, seq := { phase := .gather, pos := 0, fill := 0, chi := 0 },
                   pk0 := 0#8, pk1 := 0#8, mem := u.mem, unseen := outSpan t s.regs :: s.unseen,
                   draws := s.draws + 1 } ∧
      u.mem.wf = true ∧
      (∀ a, (colbufSpan s.regs).has a = true → u.mem.read a = Config.freeByte s.draws a) ∧
      (∀ a, (colbufSpan s.regs).has a = false → u.mem.read a = s.mem.read a)

/-- 40_host_commands R126, its premises written out over the regions of 20_memory R76: outside them START and the
convolutions are refused, H1 to H4 or H6 as outOfContract and H5 alone as unbackedRegion (20_memory R78; log 10 for the
order of the two, log 22 for empty regions); inside them, and only there, both are taken. -/
def Obligations.OutsideThePremisesIsRefused : Prop :=
  ∀ (s : State) (t : Tag), s.status = .idle ∨ s.status = .done ∨ s.status = .sizeMismatch → sizeOk t s.regs = true →
    let r := s.regs
    let reads : List Span :=
      [⟨r.inBase.toNat, r.di * r.di * r.ci * t.ib.bits / 8⟩,
       ⟨r.wBase.toNat, r.co * (r.ci * r.k * r.k) * t.wb.bits / 8⟩,
       ⟨r.biasBase.toNat, 4 * r.co⟩,
       ⟨r.qaBase.toNat, if t.fold = .thr then 4 * r.co * (2 ^ t.ob.bits - 1) else 4 * r.co⟩,
       ⟨r.qbBase.toNat, if t.fold = .thr then 0 else r.co⟩,
       ⟨r.zwBase.toNat, if t.zwm = true then r.co else 0⟩]
    let out : Span := ⟨r.outBase.toNat, r.outH * r.outW * r.co * t.ob.bits / 8⟩
    let colbuf : Span := ⟨r.colbufBase.toNat, 4 * (r.ci * r.k * r.k)⟩
    let inside : Prop :=
      (1 ≤ r.di ∧ 1 ≤ r.ci ∧ 1 ≤ r.co ∧ 1 ≤ r.k ∧ 1 ≤ r.s) ∧
      (r.k ≤ r.di + r.pt + r.pb ∧ r.k ≤ r.di + r.pl + r.pr) ∧
      (∀ q ∈ out :: colbuf :: reads, q.base + q.size ≤ 4294967296) ∧
      (∀ a, ¬ (out.has a = true ∧ colbuf.has a = true) ∧
        ∀ q ∈ reads, ¬ (q.has a = true ∧ (out.has a = true ∨ colbuf.has a = true))) ∧
      (t.fold = .icn → ∀ c, c < r.co → -31 ≤ shf r s.mem c ∧ shf r s.mem c ≤ 31)
    let backed : Prop :=
      ∀ q ∈ out :: colbuf :: reads, ∀ a, q.has a = true → ∀ h ∈ s.holes, h.has a = false
    (¬ inside →
      (modeDecode r.modeW = .legal t → exec .start s = .refused .outOfContract) ∧
      (∀ i : Instr, i.tag? = some t → exec i s = .refused .outOfContract)) ∧
    (inside → ¬ backed →
      (modeDecode r.modeW = .legal t → exec .start s = .refused .unbackedRegion) ∧
      (∀ i : Instr, i.tag? = some t → exec i s = .refused .unbackedRegion)) ∧
    (inside → backed →
      inContract t r s.mem = true ∧ premiseH5 t r s.holes = true ∧
      (modeDecode r.modeW = .legal t → exec .start s = .next (accept t s)) ∧
      (∀ i : Instr, i.tag? = some t → ∃ u, exec i s = .next u))

/-- 60_exceptions R304 (1): in BUSY and in FAULT no instruction does anything. -/
def Obligations.NothingRunsInBusyOrFault : Prop :=
  ∀ (i : Instr) (s : State), s.status = .busy ∨ s.status = .fault → exec i s = .next s

/-! ## The whole call -/

/-- 40_host_commands R138: a convolution inside the contract ends in DONE with the registers unchanged; element
`pos*CO + c` of the packed stream at OUT_BASE is `Fold(c, Acc(pos, c))` over the configuration and memory at START;
region COLBUF is unspecified; every other byte of memory, and every field the call does not work on, is as it was. All
45 convolutions. That each is one whole call is the model's choice (R103; log 4), as are the free bytes of COLBUF and their
draw number (log 6) and the record that the host has not seen OUT complete (log 7). -/
def Obligations.CallComputesConv : Prop :=
  ∀ (i : Instr) (t : Tag) (s : State), i.tag? = some t → s.mem.wf = true →
    s.status = .idle ∨ s.status = .done ∨ s.status = .sizeMismatch →
    sizeOk t s.regs = true → inContract t s.regs s.mem = true → premiseH5 t s.regs s.holes = true →
    ∃ u, exec i s = .next u ∧ u.status = .done ∧ SameOutside s u ∧ u.mem.wf = true ∧
      u.draws = s.draws + 1 ∧ u.unseen = outSpan t s.regs :: s.unseen ∧
      (∀ pos c, pos < s.regs.n → c < s.regs.co →
        packedElem u.mem s.regs.outBase.toNat t.ob (pos * s.regs.co + c) =
          fold t s.regs s.mem c (word32 (bias s.regs s.mem c +
            ((List.range s.regs.len).map
              (fun j => ((weight t s.regs s.mem c j : Int) - zw t s.regs s.mem c) *
                windowElem t s.regs s.mem pos j)).sum))) ∧
      (∀ a, (colbufSpan s.regs).has a = true → u.mem.read a = Config.freeByte s.draws a) ∧
      (∀ a, Untouched t s.regs a → u.mem.read a = s.mem.read a)

/-- The micro-steps that follow START make the same call as the whole-call instruction: from the state START answers,
`callSteps` steps of the machine left to itself give exactly the state `exec` gives (40_host_commands R128, R138;
log 4). That an empty list of host operations gives the block every step is log 15. -/
def Obligations.MicroStepsMakeTheWholeCall : Prop :=
  ∀ (i : Instr) (t : Tag) (s u : State), i.tag? = some t → modeDecode s.regs.modeW = .legal t → s.pending = [] →
    s.status = .idle ∨ s.status = .done ∨ s.status = .sizeMismatch → exec .start s = .next u →
    Host.Core.run core (callSteps s.regs) u = exec i s

/-- 40_host_commands R137: an accepted START reaches DONE after exactly `N + (N div 2)(CO div 2) + (N mod 2) CO + 1`
micro-steps, and is BUSY before. That a BUSY block with nothing pending is stepped every time is log 15: R137 asks for
weak fairness. -/
def Obligations.AcceptedStartTakesExactlyItsSteps : Prop :=
  ∀ (s : State) (t : Tag), s.mem.wf = true → s.pending = [] →
    s.status = .idle ∨ s.status = .done ∨ s.status = .sizeMismatch → Launchable t s →
    ∃ u : State, exec .start s = .next u ∧
      (∀ k, k < s.regs.n + (s.regs.n / 2) * (s.regs.co / 2) + (s.regs.n % 2) * s.regs.co + 1 →
        ∃ x : State, Host.Core.run core k u = .next x ∧ x.status = .busy) ∧
      ∃ x : State, Host.Core.run core
        (s.regs.n + (s.regs.n / 2) * (s.regs.co / 2) + (s.regs.n % 2) * s.regs.co + 1) u = .next x ∧
        x.status = .done

/-! ## The micro-steps -/

/-- 40_host_commands R130 with 42_window_builder R214: GATHER writes the whole column FILL with the window of position
POS, advances SEQ, and leaves everything else alone. The block's turn comes with nothing pending, by the host's leave, or
under a POLL (log 3, 4). -/
def Obligations.GatherWritesTheWindow : Prop :=
  ∀ (s : State) (t : Tag) (rest : List HostOp), s.status = .busy → TurnLeaves s rest →
    modeDecode s.regs.modeW = .legal t → s.seq.phase = .gather → s.seq.fill < 2 →
    ∃ (u : State) (col : List Elem), step s = .next u ∧ col.length = s.regs.ci * s.regs.k * s.regs.k ∧
      u = { s with pending := rest, seq := u.seq, col0 := if s.seq.fill = 0 then col else s.col0,
                   col1 := if s.seq.fill = 1 then col else s.col1 } ∧
      u.seq.pos = s.seq.pos + 1 ∧ u.seq.fill = s.seq.fill + 1 ∧
      (s.seq.fill = 1 → u.seq.phase = .dot2 ∧ u.seq.chi = 0) ∧
      (s.seq.fill = 0 → s.seq.pos + 1 = s.regs.n → u.seq.phase = .dot1 ∧ u.seq.chi = 0) ∧
      (s.seq.fill = 0 → s.seq.pos + 1 ≠ s.regs.n → u.seq.phase = .gather ∧ u.seq.chi = s.seq.chi) ∧
      ∀ ky kx c, ky < s.regs.k → kx < s.regs.k → c < s.regs.ci →
        let iy : Int := (s.seq.pos / s.regs.outW : Nat) * (s.regs.s : Int) - s.regs.pt + ky
        let ix : Int := (s.seq.pos % s.regs.outW : Nat) * (s.regs.s : Int) - s.regs.pl + kx
        colElem col ((ky * s.regs.k + kx) * s.regs.ci + c) =
          if 0 ≤ iy ∧ iy < s.regs.di ∧ 0 ≤ ix ∧ ix < s.regs.di then
            (packedElem s.mem s.regs.inBase.toNat t.ib
              ((iy.toNat * s.regs.di + ix.toNat) * s.regs.ci + c) : Int) - s.regs.zIn
          else 0

/-- 40_host_commands R132 with 44_requant_pack R280: DOT2 leaves the four accumulators of its channel pair and columns,
advances SEQ, and makes its four PACKs: where neither channel fills a byte both levels go into each pack register and
memory is as it was; where one does, the pack registers are cleared and the bytes stand at their addresses; no other byte
changes. The bytes are stated inside a legal call, where OUT holds no operand of a later fold. -/
def Obligations.Dot2FormsFourAccumulators : Prop :=
  ∀ (s : State) (t : Tag) (rest : List HostOp), s.status = .busy → TurnLeaves s rest →
    modeDecode s.regs.modeW = .legal t → s.seq.phase = .dot2 →
    let c := s.seq.chi
    ∃ u, step s = .next u ∧
      u = { s with pending := rest, seq := u.seq, acc0 := u.acc0, acc1 := u.acc1, acc2 := u.acc2, acc3 := u.acc3,
                   pk0 := u.pk0, pk1 := u.pk1, mem := u.mem } ∧
      u.acc0 = word32 (bias s.regs s.mem c + columnSum t s.regs s.mem c s.col0) ∧
      u.acc1 = word32 (bias s.regs s.mem c + columnSum t s.regs s.mem c s.col1) ∧
      u.acc2 = word32 (bias s.regs s.mem (c + 1) + columnSum t s.regs s.mem (c + 1) s.col0) ∧
      u.acc3 = word32 (bias s.regs s.mem (c + 1) + columnSum t s.regs s.mem (c + 1) s.col1) ∧
      u.seq.pos = s.seq.pos ∧ u.seq.chi = c + 2 ∧
      (c + 2 = s.regs.co → u.seq.fill = 0 ∧
        u.seq.phase = if s.seq.pos = s.regs.n then .finish else .gather) ∧
      (c + 2 ≠ s.regs.co → u.seq.fill = s.seq.fill ∧ u.seq.phase = .dot2) ∧
      (c % t.ob.epb ≠ t.ob.epb - 1 → (c + 1) % t.ob.epb ≠ t.ob.epb - 1 → u.mem = s.mem ∧
        u.pk0 = packOr t.ob (packOr t.ob s.pk0 c (fold t s.regs s.mem c u.acc0)) (c + 1)
          (fold t s.regs s.mem (c + 1) u.acc2) ∧
        u.pk1 = packOr t.ob (packOr t.ob s.pk1 c (fold t s.regs s.mem c u.acc1)) (c + 1)
          (fold t s.regs s.mem (c + 1) u.acc3)) ∧
      (s.mem.wf = true → CallOk t s → (c + 1) % t.ob.epb = t.ob.epb - 1 → u.pk0 = 0#8 ∧ u.pk1 = 0#8 ∧
        (c % t.ob.epb ≠ t.ob.epb - 1 →
          u.mem.read (packAddr t s.regs (s.seq.pos - 2) (c + 1)) =
            packOr t.ob (packOr t.ob s.pk0 c (fold t s.regs s.mem c u.acc0)) (c + 1)
              (fold t s.regs s.mem (c + 1) u.acc2) ∧
          u.mem.read (packAddr t s.regs (s.seq.pos - 1) (c + 1)) =
            packOr t.ob (packOr t.ob s.pk1 c (fold t s.regs s.mem c u.acc1)) (c + 1)
              (fold t s.regs s.mem (c + 1) u.acc3)) ∧
        (c % t.ob.epb = t.ob.epb - 1 →
          u.mem.read (packAddr t s.regs (s.seq.pos - 2) c) =
            packOr t.ob 0#8 c (fold t s.regs s.mem c u.acc0) ∧
          u.mem.read (packAddr t s.regs (s.seq.pos - 1) c) =
            packOr t.ob 0#8 c (fold t s.regs s.mem c u.acc1) ∧
          u.mem.read (packAddr t s.regs (s.seq.pos - 2) (c + 1)) =
            packOr t.ob 0#8 (c + 1) (fold t s.regs s.mem (c + 1) u.acc2) ∧
          u.mem.read (packAddr t s.regs (s.seq.pos - 1) (c + 1)) =
            packOr t.ob 0#8 (c + 1) (fold t s.regs s.mem (c + 1) u.acc3))) ∧
      (∀ a, (c % t.ob.epb = t.ob.epb - 1 → a ≠ packAddr t s.regs (s.seq.pos - 2) c ∧
          a ≠ packAddr t s.regs (s.seq.pos - 1) c) →
        ((c + 1) % t.ob.epb = t.ob.epb - 1 → a ≠ packAddr t s.regs (s.seq.pos - 2) (c + 1) ∧
          a ≠ packAddr t s.regs (s.seq.pos - 1) (c + 1)) → u.mem.read a = s.mem.read a)

/-- 40_host_commands R133: DOT1 leaves the accumulator of its channel and column 0, advances SEQ, puts the level into
PK[0] or emits the byte, and writes no other byte. -/
def Obligations.Dot1FormsOneAccumulator : Prop :=
  ∀ (s : State) (t : Tag) (rest : List HostOp), s.mem.wf = true → s.status = .busy → TurnLeaves s rest →
    modeDecode s.regs.modeW = .legal t → s.seq.phase = .dot1 →
    ∃ u, step s = .next u ∧
      u = { s with pending := rest, seq := u.seq, acc0 := u.acc0, pk0 := u.pk0, mem := u.mem } ∧
      u.acc0 = word32 (bias s.regs s.mem s.seq.chi + columnSum t s.regs s.mem s.seq.chi s.col0) ∧
      u.seq.pos = s.seq.pos ∧ u.seq.chi = s.seq.chi + 1 ∧
      (s.seq.chi + 1 = s.regs.co → u.seq.fill = 0 ∧ u.seq.phase = .finish) ∧
      (s.seq.chi + 1 ≠ s.regs.co → u.seq.fill = s.seq.fill ∧ u.seq.phase = .dot1) ∧
      (s.seq.chi % t.ob.epb ≠ t.ob.epb - 1 →
        u.pk0 = packOr t.ob s.pk0 s.seq.chi (fold t s.regs s.mem s.seq.chi u.acc0) ∧ u.mem = s.mem) ∧
      (s.seq.chi % t.ob.epb = t.ob.epb - 1 → u.pk0 = 0#8 ∧
        u.mem.read (packAddr t s.regs (s.seq.pos - 1) s.seq.chi) =
          packOr t.ob s.pk0 s.seq.chi (fold t s.regs s.mem s.seq.chi u.acc0) ∧
        ∀ a, a ≠ packAddr t s.regs (s.seq.pos - 1) s.seq.chi → u.mem.read a = s.mem.read a)

/-- 40_host_commands R136: FINISH writes DONE and nothing else (the working registers keep what they held: log 20), and
in DONE the block has no enabled micro-step: its turn leaves the state as it is. -/
def Obligations.FinishWritesDone : Prop :=
  ∀ (s : State) (t : Tag) (rest : List HostOp), TurnLeaves s rest →
    (s.status = .busy → modeDecode s.regs.modeW = .legal t → s.seq.phase = .finish →
      step s = .next { s with pending := rest, status := .done }) ∧
    (s.status = .done → step s = .next { s with pending := rest })

/-- 43_dot_product R248: DOT2 and DOT1 form the same accumulator for a channel and a column, the exact sum wrapped once. -/
def Obligations.BlockedAndScalarDotAgree : Prop :=
  ∀ (t : Tag) (r : Regs) (m : Memory) (c : Nat) (x y : List Elem),
    (dot2 t r m c x y).a0 = dot1 t r m c x ∧ (dot2 t r m c x y).a1 = dot1 t r m c y ∧
    (dot2 t r m c x y).a2 = dot1 t r m (c + 1) x ∧ (dot2 t r m c x y).a3 = dot1 t r m (c + 1) y ∧
    (dot1 t r m c x).toInt = s32 (bias r m c + columnSum t r m c x)

/-- 43_dot_product R253: against a column of zeros every accumulator equals its bias. -/
def Obligations.ZeroColumnLeavesTheBias : Prop :=
  ∀ (t : Tag) (r : Regs) (m : Memory) (c : Nat) (x y : List Elem), (∀ j, j < r.len → colElem x j = 0) →
    (dot1 t r m c x).toInt = bias r m c ∧
    (dot2 t r m c x y).a0.toInt = bias r m c ∧ (dot2 t r m c x y).a2.toInt = bias r m (c + 1) ∧
    (dot2 t r m c y x).a1.toInt = bias r m c ∧ (dot2 t r m c y x).a3.toInt = bias r m (c + 1)

/-- 43_dot_product R254: weights all at their zero point leave the bias, for any column, in DOT1 and on both channels of
DOT2. -/
def Obligations.WeightsAtZeroPointLeaveTheBias : Prop :=
  ∀ (t : Tag) (r : Regs) (m : Memory) (c : Nat) (x y : List Elem),
    (∀ j, j < r.len → weight t r m c j = zw t r m c) →
    (dot1 t r m c x).toInt = bias r m c ∧
    (dot2 t r m c x y).a0.toInt = bias r m c ∧ (dot2 t r m c x y).a1.toInt = bias r m c ∧
    (∀ c', c = c' + 1 →
      (dot2 t r m c' x y).a2.toInt = bias r m c ∧ (dot2 t r m c' x y).a3.toInt = bias r m c)

/-- 00_scope R10 and 43_dot_product R247: an accumulator holds the exact sum modulo `2^32`, read as signed. -/
def Obligations.AccumulatorsWrapModulo32Bits : Prop :=
  ∀ (acc : Word) (w a : Int),
    (mac acc w a).toInt = s32 (acc.toInt + w * a) ∧
    -2147483648 ≤ s32 (acc.toInt + w * a) ∧ s32 (acc.toInt + w * a) ≤ 2147483647 ∧
    (acc.toInt + w * a - s32 (acc.toInt + w * a)) % 4294967296 = 0

/-! ## The window -/

/-- 42_window_builder R219: in band middle × mid every window element is in bounds, and each kernel row is the run of
`K*CI` elements unpacked from one byte address. -/
def Obligations.FastPathEqualsTheWindow : Prop :=
  ∀ (t : Tag) (r : Regs) (m : Memory) (pos ky : Nat), r.ci % t.ib.epb = 0 →
    bandOf r (originRow r pos) = .inside → bandOf r (originCol r pos) = .inside → ky < r.k →
    (∀ kx, kx < r.k → inBounds r (originRow r pos + ky) (originCol r pos + kx) = true) ∧
    fastRow t r m pos ky =
      (List.range (r.k * r.ci)).map (fun x => windowElem t r m pos (ky * r.k * r.ci + x))

/-- 42_window_builder R223: an input tensor that is `Z_IN` everywhere gives windows of zeros and accumulators that equal
their biases. -/
def Obligations.InputAtZeroPointLeavesTheBias : Prop :=
  ∀ (t : Tag) (r : Regs) (m : Memory),
    (∀ y x c, y < r.di → x < r.di → c < r.ci → inElem t r m y x c = r.zIn) →
    ∀ pos c, (∀ j, j < r.len → windowElem t r m pos j = 0) ∧ (convAcc t r m pos c).toInt = bias r m c

/-- 42_window_builder R224: a window wholly out of bounds leaves the bias, whatever the weights and zero points. -/
def Obligations.PaddedWindowLeavesTheBias : Prop :=
  ∀ (t : Tag) (r : Regs) (m : Memory) (pos : Nat),
    (∀ ky kx, ky < r.k → kx < r.k → inBounds r (originRow r pos + ky) (originCol r pos + kx) = false) →
    ∀ c, (convAcc t r m pos c).toInt = bias r m c

/-- 42_window_builder R216: every window value lies in `-255 .. 255`, so its 16-bit element holds it exactly. -/
def Obligations.WindowValuesFitTheirElements : Prop :=
  ∀ (t : Tag) (r : Regs) (m : Memory) (pos j : Nat), j < r.len →
    -255 ≤ windowElem t r m pos j ∧ windowElem t r m pos j ≤ 255 ∧
    colElem (window t r m pos) j = windowElem t r m pos j

/-- 42_window_builder R225: of the `K * K` kernel positions of a window, as many are in bounds as the product of the two
clamped widths, each taken as 0 when negative; and every other position gives the number 0 (R214, R215). -/
def Obligations.InBoundsCountIsTheClampedWidth : Prop :=
  ∀ (t : Tag) (r : Regs) (m : Memory) (pos : Nat),
    (((List.range r.k).map (fun ky =>
        (List.range r.k).countP (fun kx =>
          inBounds r (originRow r pos + (ky : Int)) (originCol r pos + (kx : Int))))).sum : Int) =
      max 0 (min (r.di : Int) (originRow r pos + r.k) - max 0 (originRow r pos)) *
      max 0 (min (r.di : Int) (originCol r pos + r.k) - max 0 (originCol r pos)) ∧
    (∀ ky kx c : Nat, inBounds r (originRow r pos + (ky : Int)) (originCol r pos + (kx : Int)) = false →
      windowAt t r m pos ky kx c = 0) ∧
    (∀ o : Int, (inBoundsCount r o : Int) = max 0 (min (r.di : Int) (o + r.k) - max 0 o))

/-! ## Folding -/

/-- 44_requant_pack R271: every level fits its slot, for both policies and every accumulator. -/
def Obligations.LevelsFitTheirSlot : Prop :=
  ∀ (t : Tag) (r : Regs) (m : Memory) (c : Nat) (acc : Word), fold t r m c acc < 2 ^ t.ob.bits

/-- 44_requant_pack R272: on a sorted table the THR level is the index of the first threshold the accumulator does not
exceed, or NT if it exceeds all. -/
def Obligations.SortedThresholdLevelIsTheFirstNotExceeded : Prop :=
  ∀ (t : Tag) (r : Regs) (m : Memory) (c : Nat) (acc : Word), t.fold = .thr →
    (∀ i j, i ≤ j → j < 2 ^ t.ob.bits - 1 → thr t r m c i ≤ thr t r m c j) →
    ∀ lv, lv ≤ 2 ^ t.ob.bits - 1 →
      (fold t r m c acc = lv ↔
        (∀ j, j < lv → thr t r m c j < acc.toInt) ∧
        (lv < 2 ^ t.ob.bits - 1 → acc.toInt ≤ thr t r m c lv))

/-- 44_requant_pack R273 (a): the THR level is monotone in the accumulator for any table, sorted or not. -/
def Obligations.ThresholdLevelIsMonotone : Prop :=
  ∀ (t : Tag) (r : Regs) (m : Memory) (c : Nat) (a b : Word), t.fold = .thr → a.toInt ≤ b.toInt →
    fold t r m c a ≤ fold t r m c b

/-- 44_requant_pack R274, R286: the ICN level is `floor(s32(acc << ls) * m / 2^(32+rs)) + Z_OUT` clamped to
`0 .. 2^OB - 1`, with the shift split of 30_encoding R101. -/
def Obligations.IcnLevelIsOneFlooredDivision : Prop :=
  ∀ (t : Tag) (r : Regs) (m : Memory) (c : Nat) (acc : Word), t.fold = .icn →
    (fold t r m c acc : Int) =
      max 0 (min (2 ^ t.ob.bits - 1)
        (if shf r m c < 0 then
          s32 (acc.toInt * 2 ^ (-(shf r m c)).toNat) * mul r m c / 2 ^ 32 + r.zOut
        else s32 acc.toInt * mul r m c / 2 ^ (32 + (shf r m c).toNat) + r.zOut))

/-- 44_requant_pack R284: with `n = 0` and multiplier `2^30` the fold is the arithmetic right shift by 2. -/
def Obligations.IcnAnchorIsShiftByTwo : Prop :=
  ∀ (t : Tag) (r : Regs) (m : Memory) (c : Nat) (acc : Word), t.fold = .icn → shf r m c = 0 →
    mul r m c = 1073741824 →
    icnHi acc.toInt (mul r m c) (shf r m c) = acc.toInt / 4 ∧
    (fold t r m c acc : Int) = max 0 (min (2 ^ t.ob.bits - 1) (acc.toInt / 4 + r.zOut))

/-- 44_requant_pack R285: for a non-negative multiplier and accumulators the pre-shift does not wrap, the ICN level is
non-decreasing. -/
def Obligations.IcnLevelIsMonotone : Prop :=
  ∀ (t : Tag) (r : Regs) (m : Memory) (c : Nat) (a b : Word), t.fold = .icn → 0 ≤ mul r m c →
    -2147483648 ≤ shl a.toInt (shiftSplit (shf r m c)).1 → shl b.toInt (shiftSplit (shf r m c)).1 ≤ 2147483647 →
    a.toInt ≤ b.toInt → fold t r m c a ≤ fold t r m c b

/-- 44_requant_pack R276: the exact product of the multiply-high fits 64 bits and its high word lies in
`-2^30 .. 2^30`, for every accumulator, shift and multiplier of a channel. -/
def Obligations.MultiplyHighStaysInRange : Prop :=
  ∀ (r : Regs) (m : Memory) (c : Nat) (acc : Word),
    -(4611686018427387904 - 2147483648) ≤ icnPre acc.toInt (shf r m c) * mul r m c ∧
    icnPre acc.toInt (shf r m c) * mul r m c ≤ 4611686018427387904 ∧
    -1073741824 ≤ icnHi acc.toInt (mul r m c) (shf r m c) ∧ icnHi acc.toInt (mul r m c) (shf r m c) ≤ 1073741824

/-! ## Rules about the whole machine -/

/-- The invariant is kept by every step from every state that has it: canonical memory, and a BUSY block inside a legal
call at a point of its sequence (40_host_commands R126, R137; 44_requant_pack R282). -/
def Obligations.EveryStepKeepsTheInvariant : Prop :=
  ∀ s u : State, Inv s → step s = .next u → Inv u

/-- The invariant holds at reset (10_state R45). -/
def Obligations.ResetHasTheInvariant : Prop := Inv State.reset

/-- 40_host_commands R137: the ranges of SEQ in every BUSY state that has the invariant. -/
def Obligations.InvariantGivesTheSequencerRanges : Prop :=
  ∀ s : State, Inv s → s.status = .busy → SeqRanges s

/-- 20_memory R76: in a legal call the block's micro-step writes no byte outside region OUT but in COLBUF; that the bytes
of COLBUF, which the spec lets the block write and calls unspecified (R75), stay the same free bytes through the call is
the model's choice (log 6). -/
def Obligations.BlockWritesOnlyRegionOut : Prop :=
  ∀ (s u : State) (t : Tag) (rest : List HostOp), s.mem.wf = true → s.status = .busy → CallOk t s →
    TurnLeaves s rest → step s = .next u →
    (∀ a, Untouched t s.regs a → u.mem.read a = s.mem.read a) ∧
    (∀ a, (colbufSpan s.regs).has a = true → u.mem.read a = s.mem.read a)

/-- 10_state R34: nothing but reset changes a configuration register while BUSY. -/
def Obligations.ConfigurationIsConstantWhileBusy : Prop :=
  ∀ s u : State, s.status = .busy → (∀ rest, s.pending ≠ .reset :: rest) → step s = .next u → u.regs = s.regs

/-- 60_exceptions R306: FAULT ignores CMD writes, enables no micro-step, keeps the RW registers readable and writable,
reads 4, and only reset leaves it. That a STATUS read clears the record of OUT regions is log 7. -/
def Obligations.FaultIsStickyUntilReset : Prop :=
  ∀ s : State, s.status = .fault →
    (∀ v rest, s.pending = .wr 0 4 v :: rest → step s = .next { s with pending := rest }) ∧
    (∀ rest, TurnLeaves s rest → step s = .next { s with pending := rest }) ∧
    (∀ off rest, off < 0x100 → off % 4 = 0 → s.pending = .rd off 4 :: rest →
      step s = .next { s with pending := rest, rdata := readReg s off,
                              unseen := if off = 0x04 then [] else s.unseen }) ∧
    (∀ off v rest, 0x08 ≤ off → off ≤ 0x48 → off % 4 = 0 → s.pending = .wr off 4 v :: rest →
      step s = .next { s with pending := rest, regs := s.regs.write off v } ∧
      readReg { s with pending := rest, regs := s.regs.write off v } off = v &&& definedBits off) ∧
    readReg s 0x04 = 4#32 ∧
    (∀ u, step s = .next u → u.status ≠ .fault → ∃ rest, s.pending = .reset :: rest) ∧
    (∀ rest, s.pending = .reset :: rest → ∃ u, step s = .next u ∧ u.status = .idle)

/-- 10_state R30: STATE changes only by a START in a STATE it is acted on, by FINISH, and by reset. -/
def Obligations.StateIsWrittenOnlyByStartFinishReset : Prop :=
  ∀ s u : State, step s = .next u → u.status ≠ s.status →
    (∃ rest, s.pending = .reset :: rest ∧ u.status = .idle) ∨
    (acceptsStart s.status = true ∧ ∃ v rest, s.pending = .wr 0 4 v :: rest ∧ decode .cmd v = .start ∧
      (u.status = .busy ∨ u.status = .sizeMismatch ∨ u.status = .fault)) ∨
    (acceptsStart s.status = true ∧ (∃ w rest, s.pending = .call w :: rest) ∧
      (u.status = .done ∨ u.status = .sizeMismatch ∨ u.status = .fault)) ∨
    (s.status = .busy ∧ s.seq.phase = .finish ∧ u.status = .done)

/-- 70_reset R330, R331, R333: reset from any STATE puts every register at 0 and STATE at IDLE; data memory is unchanged
unless a call was in progress, and then only OUT and COLBUF of that call are unspecified. -/
def Obligations.ResetClearsTheRegisters : Prop :=
  ∀ (s : State) (rest : List HostOp), s.pending = .reset :: rest →
    ∃ u, step s = .next u ∧ u.status = .idle ∧ (∀ off, readReg u off = 0#32) ∧
      u.holes = s.holes ∧ u.pending = rest ∧ u.unseen = s.unseen ∧ u.rdata = s.rdata ∧
      (s.mem.wf = true → u.mem.wf = true) ∧
      (s.status ≠ .busy → u.mem = s.mem) ∧
      (∀ t, s.status = .busy → Launchable t s → s.mem.wf = true →
        ∀ a, (Untouched t s.regs a → u.mem.read a = s.mem.read a) ∧
          ((outSpan t s.regs).has a = true ∨ (colbufSpan s.regs).has a = true →
            u.mem.read a = Config.freeByte s.draws a))

/-- The reset values the spec gives (10_state R45): STATE IDLE, every register reads 0. -/
def Obligations.ResetRegistersReadZero : Prop :=
  State.reset.status = .idle ∧ ∀ off, readReg State.reset off = 0#32

/-- 10_state R39: no instruction depends on SCRB_BASE; changing it changes no outcome and nothing of a next state but
itself. -/
def Obligations.SecondScratchBufferIsNeverUsed : Prop :=
  ∀ (i : Instr) (s : State) (v : Addr),
    match exec i s, exec i { s with regs := { s.regs with scrbBase := v } } with
    | .next u, .next x => x = { u with regs := { u.regs with scrbBase := v } }
    | .fault f, .fault g => f = g
    | .refused p, .refused q => p = q
    | _, _ => False
end

