-- ==== Sys2Proof/Laws/State.lean ====
section
/-! SUPPORT. One lemma per field per named update of State, each true by `rfl`: no later proof unfolds an update. -/

namespace Sys2Proof.Machine

@[simp] theorem raise_status (e : Abnormal) (s : State) : (raise e s).status = e.status := rfl

@[simp] theorem raise_regs (e : Abnormal) (s : State) : (raise e s).regs = s.regs := rfl

@[simp] theorem raise_seq (e : Abnormal) (s : State) : (raise e s).seq = s.seq := rfl

@[simp] theorem raise_acc0 (e : Abnormal) (s : State) : (raise e s).acc0 = s.acc0 := rfl

@[simp] theorem raise_acc1 (e : Abnormal) (s : State) : (raise e s).acc1 = s.acc1 := rfl

@[simp] theorem raise_acc2 (e : Abnormal) (s : State) : (raise e s).acc2 = s.acc2 := rfl

@[simp] theorem raise_acc3 (e : Abnormal) (s : State) : (raise e s).acc3 = s.acc3 := rfl

@[simp] theorem raise_pk0 (e : Abnormal) (s : State) : (raise e s).pk0 = s.pk0 := rfl

@[simp] theorem raise_pk1 (e : Abnormal) (s : State) : (raise e s).pk1 = s.pk1 := rfl

@[simp] theorem raise_col0 (e : Abnormal) (s : State) : (raise e s).col0 = s.col0 := rfl

@[simp] theorem raise_col1 (e : Abnormal) (s : State) : (raise e s).col1 = s.col1 := rfl

@[simp] theorem raise_mem (e : Abnormal) (s : State) : (raise e s).mem = s.mem := rfl

@[simp] theorem raise_holes (e : Abnormal) (s : State) : (raise e s).holes = s.holes := rfl

@[simp] theorem raise_pending (e : Abnormal) (s : State) : (raise e s).pending = s.pending := rfl

@[simp] theorem raise_unseen (e : Abnormal) (s : State) : (raise e s).unseen = s.unseen := rfl

@[simp] theorem raise_rdata (e : Abnormal) (s : State) : (raise e s).rdata = s.rdata := rfl

@[simp] theorem raise_draws (e : Abnormal) (s : State) : (raise e s).draws = s.draws := rfl

@[simp] theorem accept_status (t : Tag) (s : State) : (accept t s).status = .busy := rfl

@[simp] theorem accept_regs (t : Tag) (s : State) : (accept t s).regs = s.regs := rfl

@[simp] theorem accept_seq (t : Tag) (s : State) : (accept t s).seq = { phase := .gather, pos := 0, fill := 0, chi := 0 } := rfl

@[simp] theorem accept_acc0 (t : Tag) (s : State) : (accept t s).acc0 = s.acc0 := rfl

@[simp] theorem accept_acc1 (t : Tag) (s : State) : (accept t s).acc1 = s.acc1 := rfl

@[simp] theorem accept_acc2 (t : Tag) (s : State) : (accept t s).acc2 = s.acc2 := rfl

@[simp] theorem accept_acc3 (t : Tag) (s : State) : (accept t s).acc3 = s.acc3 := rfl

@[simp] theorem accept_pk0 (t : Tag) (s : State) : (accept t s).pk0 = 0#8 := rfl

@[simp] theorem accept_pk1 (t : Tag) (s : State) : (accept t s).pk1 = 0#8 := rfl

@[simp] theorem accept_col0 (t : Tag) (s : State) : (accept t s).col0 = s.col0 := rfl

@[simp] theorem accept_col1 (t : Tag) (s : State) : (accept t s).col1 = s.col1 := rfl

@[simp] theorem accept_mem (t : Tag) (s : State) : (accept t s).mem = s.mem.forgetSpan s.draws (colbufSpan s.regs).base (colbufSpan s.regs).size := rfl

@[simp] theorem accept_holes (t : Tag) (s : State) : (accept t s).holes = s.holes := rfl

@[simp] theorem accept_pending (t : Tag) (s : State) : (accept t s).pending = s.pending := rfl

@[simp] theorem accept_unseen (t : Tag) (s : State) : (accept t s).unseen = outSpan t s.regs :: s.unseen := rfl

@[simp] theorem accept_rdata (t : Tag) (s : State) : (accept t s).rdata = s.rdata := rfl

@[simp] theorem accept_draws (t : Tag) (s : State) : (accept t s).draws = s.draws + 1 := rfl

@[simp] theorem withAcc_status (s : State) (q : Acc4) : (s.withAcc q).status = s.status := rfl

@[simp] theorem withAcc_regs (s : State) (q : Acc4) : (s.withAcc q).regs = s.regs := rfl

@[simp] theorem withAcc_seq (s : State) (q : Acc4) : (s.withAcc q).seq = s.seq := rfl

@[simp] theorem withAcc_acc0 (s : State) (q : Acc4) : (s.withAcc q).acc0 = q.a0 := rfl

@[simp] theorem withAcc_acc1 (s : State) (q : Acc4) : (s.withAcc q).acc1 = q.a1 := rfl

@[simp] theorem withAcc_acc2 (s : State) (q : Acc4) : (s.withAcc q).acc2 = q.a2 := rfl

@[simp] theorem withAcc_acc3 (s : State) (q : Acc4) : (s.withAcc q).acc3 = q.a3 := rfl

@[simp] theorem withAcc_pk0 (s : State) (q : Acc4) : (s.withAcc q).pk0 = s.pk0 := rfl

@[simp] theorem withAcc_pk1 (s : State) (q : Acc4) : (s.withAcc q).pk1 = s.pk1 := rfl

@[simp] theorem withAcc_col0 (s : State) (q : Acc4) : (s.withAcc q).col0 = s.col0 := rfl

@[simp] theorem withAcc_col1 (s : State) (q : Acc4) : (s.withAcc q).col1 = s.col1 := rfl

@[simp] theorem withAcc_mem (s : State) (q : Acc4) : (s.withAcc q).mem = s.mem := rfl

@[simp] theorem withAcc_holes (s : State) (q : Acc4) : (s.withAcc q).holes = s.holes := rfl

@[simp] theorem withAcc_pending (s : State) (q : Acc4) : (s.withAcc q).pending = s.pending := rfl

@[simp] theorem withAcc_unseen (s : State) (q : Acc4) : (s.withAcc q).unseen = s.unseen := rfl

@[simp] theorem withAcc_rdata (s : State) (q : Acc4) : (s.withAcc q).rdata = s.rdata := rfl

@[simp] theorem withAcc_draws (s : State) (q : Acc4) : (s.withAcc q).draws = s.draws := rfl

@[simp] theorem finish_status (s : State) : (finish s).status = .done := rfl

@[simp] theorem finish_regs (s : State) : (finish s).regs = s.regs := rfl

@[simp] theorem finish_seq (s : State) : (finish s).seq = s.seq := rfl

@[simp] theorem finish_acc0 (s : State) : (finish s).acc0 = s.acc0 := rfl

@[simp] theorem finish_acc1 (s : State) : (finish s).acc1 = s.acc1 := rfl

@[simp] theorem finish_acc2 (s : State) : (finish s).acc2 = s.acc2 := rfl

@[simp] theorem finish_acc3 (s : State) : (finish s).acc3 = s.acc3 := rfl

@[simp] theorem finish_pk0 (s : State) : (finish s).pk0 = s.pk0 := rfl

@[simp] theorem finish_pk1 (s : State) : (finish s).pk1 = s.pk1 := rfl

@[simp] theorem finish_col0 (s : State) : (finish s).col0 = s.col0 := rfl

@[simp] theorem finish_col1 (s : State) : (finish s).col1 = s.col1 := rfl

@[simp] theorem finish_mem (s : State) : (finish s).mem = s.mem := rfl

@[simp] theorem finish_holes (s : State) : (finish s).holes = s.holes := rfl

@[simp] theorem finish_pending (s : State) : (finish s).pending = s.pending := rfl

@[simp] theorem finish_unseen (s : State) : (finish s).unseen = s.unseen := rfl

@[simp] theorem finish_rdata (s : State) : (finish s).rdata = s.rdata := rfl

@[simp] theorem finish_draws (s : State) : (finish s).draws = s.draws := rfl

@[simp] theorem resetRegisters_status (s : State) : (resetRegisters s).status = .idle := rfl

@[simp] theorem resetRegisters_regs (s : State) : (resetRegisters s).regs = Regs.reset := rfl

@[simp] theorem resetRegisters_mem (s : State) : (resetRegisters s).mem = s.mem := rfl

@[simp] theorem resetRegisters_holes (s : State) : (resetRegisters s).holes = s.holes := rfl

@[simp] theorem resetRegisters_pending (s : State) : (resetRegisters s).pending = s.pending := rfl

@[simp] theorem resetRegisters_unseen (s : State) : (resetRegisters s).unseen = s.unseen := rfl

@[simp] theorem resetRegisters_rdata (s : State) : (resetRegisters s).rdata = s.rdata := rfl

@[simp] theorem resetRegisters_draws (s : State) : (resetRegisters s).draws = s.draws + 1 := rfl

@[simp] theorem resetBlock_status (s : State) : (resetBlock s).status = .idle := rfl

@[simp] theorem resetBlock_regs (s : State) : (resetBlock s).regs = Regs.reset := rfl

@[simp] theorem resetBlock_mem (s : State) : (resetBlock s).mem = memAfterReset s := rfl

@[simp] theorem resetBlock_holes (s : State) : (resetBlock s).holes = s.holes := rfl

@[simp] theorem resetBlock_pending (s : State) : (resetBlock s).pending = s.pending := rfl

@[simp] theorem resetBlock_unseen (s : State) : (resetBlock s).unseen = s.unseen := rfl

@[simp] theorem resetBlock_rdata (s : State) : (resetBlock s).rdata = s.rdata := rfl

@[simp] theorem resetBlock_draws (s : State) : (resetBlock s).draws = s.draws + 1 := rfl

@[simp] theorem withFetchWord_status (s : State) (nbits w : Nat) : (s.withFetchWord nbits w).status = s.status := rfl

@[simp] theorem withFetchWord_regs (s : State) (nbits w : Nat) : (s.withFetchWord nbits w).regs = s.regs := rfl

@[simp] theorem withFetchWord_seq (s : State) (nbits w : Nat) : (s.withFetchWord nbits w).seq = s.seq := rfl

@[simp] theorem withFetchWord_acc0 (s : State) (nbits w : Nat) : (s.withFetchWord nbits w).acc0 = s.acc0 := rfl

@[simp] theorem withFetchWord_acc1 (s : State) (nbits w : Nat) : (s.withFetchWord nbits w).acc1 = s.acc1 := rfl

@[simp] theorem withFetchWord_acc2 (s : State) (nbits w : Nat) : (s.withFetchWord nbits w).acc2 = s.acc2 := rfl

@[simp] theorem withFetchWord_acc3 (s : State) (nbits w : Nat) : (s.withFetchWord nbits w).acc3 = s.acc3 := rfl

@[simp] theorem withFetchWord_pk0 (s : State) (nbits w : Nat) : (s.withFetchWord nbits w).pk0 = s.pk0 := rfl

@[simp] theorem withFetchWord_pk1 (s : State) (nbits w : Nat) : (s.withFetchWord nbits w).pk1 = s.pk1 := rfl

@[simp] theorem withFetchWord_col0 (s : State) (nbits w : Nat) : (s.withFetchWord nbits w).col0 = s.col0 := rfl

@[simp] theorem withFetchWord_col1 (s : State) (nbits w : Nat) : (s.withFetchWord nbits w).col1 = s.col1 := rfl

@[simp] theorem withFetchWord_mem (s : State) (nbits w : Nat) : (s.withFetchWord nbits w).mem = s.mem := rfl

@[simp] theorem withFetchWord_holes (s : State) (nbits w : Nat) : (s.withFetchWord nbits w).holes = s.holes := rfl

@[simp] theorem withFetchWord_pending (s : State) (nbits w : Nat) : (s.withFetchWord nbits w).pending = deliver (tableWord nbits w) :: s.pending := rfl

@[simp] theorem withFetchWord_unseen (s : State) (nbits w : Nat) : (s.withFetchWord nbits w).unseen = s.unseen := rfl

@[simp] theorem withFetchWord_rdata (s : State) (nbits w : Nat) : (s.withFetchWord nbits w).rdata = s.rdata := rfl

@[simp] theorem withFetchWord_draws (s : State) (nbits w : Nat) : (s.withFetchWord nbits w).draws = s.draws := rfl

end Sys2Proof.Machine
end

