-- ==== Sys2Proof/Laws/Memory.lean ====
section
/-! SUPPORT. The laws of data memory: what a read gives after a write or a forget, and that every memory operation keeps
the canonical form `Memory.wf`. -/

namespace Sys2Proof.Machine

/-! ## Lists of address and value -/

/-- Every address of the list is above `a`. -/
def Above {α : Type} (a : Nat) (l : List (Nat × α)) : Prop := ∀ p ∈ l, a < p.1

theorem rising_cons {α : Type} {p : Nat × α} {l : List (Nat × α)} :
    risingKeys (p :: l) = true ↔ Above p.1 l ∧ risingKeys l = true := by
  induction l generalizing p with
  | nil => simp [risingKeys, Above]
  | cons q rest ih =>
    simp only [risingKeys, Bool.and_eq_true, decide_eq_true_eq, Above, List.mem_cons, forall_eq_or_imp]
    constructor
    · rintro ⟨hpq, hq⟩
      exact ⟨⟨hpq, fun x hx => lt_trans hpq ((ih.mp hq).1 x hx)⟩, hq⟩
    · rintro ⟨⟨hpq, -⟩, hq⟩
      exact ⟨hpq, hq⟩

theorem lookup_of_above {α : Type} {a b : Nat} {l : List (Nat × α)} (h : Above a l) (hb : b ≤ a) :
    lookup l b = none := by
  induction l with
  | nil => rfl
  | cons p rest ih =>
    have hp := h p (by simp)
    rw [lookup, if_neg (by omega)]
    exact ih (fun q hq => h q (by simp [hq]))

@[simp] theorem lookup_put_same {α : Type} (l : List (Nat × α)) (a : Nat) (v : α) :
    lookup (put l a v) a = some v := by
  induction l with
  | nil => simp [put, lookup]
  | cons p rest ih =>
    simp only [put]
    split
    · simp [lookup]
    · split
      · simp [lookup]
      · rw [lookup, if_neg ‹_›, ih]

theorem lookup_put_other {α : Type} (l : List (Nat × α)) {a b : Nat} (v : α) (h : b ≠ a) :
    lookup (put l a v) b = lookup l b := by
  induction l with
  | nil => simp [put, lookup, h.symm]
  | cons p rest ih =>
    simp only [put]
    split
    · simp [lookup, h.symm]
    · split
      · rename_i hp
        simp [lookup, h.symm, hp]
      · simp only [lookup, ih]

theorem lookup_drop_same {α : Type} {l : List (Nat × α)} (a : Nat) (h : risingKeys l = true) :
    lookup (drop l a) a = none := by
  induction l with
  | nil => rfl
  | cons p rest ih =>
    obtain ⟨hab, hr⟩ := rising_cons.mp h
    simp only [drop]
    split
    · rename_i hp
      exact lookup_of_above hab (le_of_eq hp.symm)
    · rw [lookup, if_neg ‹_›]
      exact ih hr

theorem lookup_drop_other {α : Type} (l : List (Nat × α)) {a b : Nat} (h : b ≠ a) :
    lookup (drop l a) b = lookup l b := by
  induction l with
  | nil => rfl
  | cons p rest ih =>
    simp only [drop]
    split
    · rename_i hp
      rw [lookup, if_neg (by omega)]
    · simp only [lookup, ih]

theorem mem_drop {α : Type} {l : List (Nat × α)} {a : Nat} {p : Nat × α} (h : p ∈ drop l a) : p ∈ l := by
  induction l with
  | nil => simp [drop] at h
  | cons q rest ih =>
    simp only [drop] at h
    split at h
    · simp [h]
    · rcases List.mem_cons.mp h with rfl | h'
      · simp
      · simp [ih h']

theorem mem_put {α : Type} {l : List (Nat × α)} {a : Nat} {v : α} {p : Nat × α} (h : p ∈ put l a v) :
    p = (a, v) ∨ p ∈ l := by
  induction l with
  | nil => simpa [put] using h
  | cons q rest ih =>
    simp only [put] at h
    split at h
    · simpa using h
    · split at h
      · rcases List.mem_cons.mp h with rfl | h'
        · simp
        · simp [h']
      · rcases List.mem_cons.mp h with rfl | h'
        · simp
        · rcases ih h' with h'' | h''
          · simp [h'']
          · simp [h'']

theorem rising_drop {α : Type} {l : List (Nat × α)} (a : Nat) (h : risingKeys l = true) :
    risingKeys (drop l a) = true := by
  induction l with
  | nil => rfl
  | cons p rest ih =>
    obtain ⟨hab, hr⟩ := rising_cons.mp h
    simp only [drop]
    split
    · exact hr
    · exact rising_cons.mpr ⟨fun q hq => hab q (mem_drop hq), ih hr⟩

theorem rising_put {α : Type} {l : List (Nat × α)} (a : Nat) (v : α) (h : risingKeys l = true) :
    risingKeys (put l a v) = true := by
  induction l with
  | nil => rfl
  | cons p rest ih =>
    obtain ⟨hab, hr⟩ := rising_cons.mp h
    simp only [put]
    split
    · rename_i hap
      refine rising_cons.mpr ⟨?_, h⟩
      intro q hq
      rcases List.mem_cons.mp hq with rfl | hq
      · exact hap
      · exact lt_trans hap (hab q hq)
    · split
      · rename_i hpa
        exact rising_cons.mpr ⟨fun q hq => hpa ▸ hab q hq, hr⟩
      · rename_i hlt hne
        refine rising_cons.mpr ⟨?_, ih hr⟩
        intro q hq
        rcases mem_put hq with rfl | hq
        · exact lt_of_le_of_ne (by omega) hne
        · exact hab q hq

/-- A dropped address is gone. -/
theorem not_mem_drop {α : Type} {l : List (Nat × α)} {a : Nat} (h : risingKeys l = true) {p : Nat × α}
    (hp : p ∈ drop l a) : p.1 ≠ a := by
  induction l with
  | nil => simp [drop] at hp
  | cons q rest ih =>
    obtain ⟨hab, hr⟩ := rising_cons.mp h
    simp only [drop] at hp
    split at hp
    · rename_i hq
      have := hab p hp
      omega
    · rcases List.mem_cons.mp hp with rfl | hp
      · assumption
      · exact ih hr hp

/-! ## The canonical form -/

/-- The canonical form, part by part. -/
theorem wf_iff (m : Memory) :
    m.wf = true ↔ risingKeys m.cells = true ∧ risingKeys m.unspec = true ∧
      (∀ c ∈ m.cells, c.1 < Config.addrSpace ∧ c.2 ≠ Memory.unlistedByte) ∧
      (∀ u ∈ m.unspec, u.1 < Config.addrSpace) ∧
      (∀ c ∈ m.cells, ∀ u ∈ m.unspec, u.1 ≠ c.1) := by
  simp only [Memory.wf, Bool.and_eq_true, List.all_eq_true, decide_eq_true_eq, bne_iff_ne, and_assoc]

theorem write_wf {m : Memory} {a : Nat} (v : Byte) (h : m.wf = true) (ha : a < Config.addrSpace) :
    (m.write a v).wf = true := by
  obtain ⟨hc, hu, hcv, huv, hd⟩ := (wf_iff m).mp h
  refine (wf_iff _).mpr ⟨?_, rising_drop a hu, ?_, fun u hu' => huv u (mem_drop hu'), ?_⟩
  · simp only [Memory.write]
    split
    · exact rising_drop a hc
    · exact rising_put a v hc
  · intro c hc'
    simp only [Memory.write] at hc'
    split at hc'
    · exact hcv c (mem_drop hc')
    · rcases mem_put hc' with rfl | hc'
      · exact ⟨ha, ‹_›⟩
      · exact hcv c hc'
  · intro c hc' u hu'
    simp only [Memory.write] at hc' hu'
    split at hc'
    · exact hd c (mem_drop hc') u (mem_drop hu')
    · rcases mem_put hc' with rfl | hc'
      · exact not_mem_drop hu hu'
      · exact hd c hc' u (mem_drop hu')

theorem forget_wf {m : Memory} {a : Nat} (draw : Nat) (h : m.wf = true) (ha : a < Config.addrSpace) :
    (m.forget draw a).wf = true := by
  obtain ⟨hc, hu, hcv, huv, hd⟩ := (wf_iff m).mp h
  refine (wf_iff _).mpr ⟨rising_drop a hc, rising_put a draw hu, fun c hc' => hcv c (mem_drop hc'), ?_, ?_⟩
  · intro u hu'
    rcases mem_put hu' with rfl | hu'
    · exact ha
    · exact huv u hu'
  · intro c hc' u hu'
    rcases mem_put hu' with rfl | hu'
    · exact (not_mem_drop hc hc').symm
    · exact hd c (mem_drop hc') u hu'

theorem wrapAddr_lt (a : Nat) : wrapAddr a < Config.addrSpace := Nat.mod_lt _ (by decide)

theorem wrapAddr_of_lt {a : Nat} (h : a < Config.addrSpace) : wrapAddr a = a := Nat.mod_eq_of_lt h

/-- One more byte of a span forgotten. -/
theorem forgetSpan_succ (m : Memory) (draw base size : Nat) :
    m.forgetSpan draw base (size + 1) = (m.forgetSpan draw base size).forget draw (wrapAddr (base + size)) := by
  simp [Memory.forgetSpan, List.range_succ]

theorem forgetSpan_wf {m : Memory} (draw base size : Nat) (h : m.wf = true) :
    (m.forgetSpan draw base size).wf = true := by
  induction size with
  | zero => simpa [Memory.forgetSpan] using h
  | succ n ih =>
    rw [forgetSpan_succ]
    exact forget_wf draw ih (wrapAddr_lt _)

/-! ## Reading after writing -/

theorem read_write_same {m : Memory} (a : Nat) (v : Byte) (h : m.wf = true) : (m.write a v).read a = v := by
  obtain ⟨hc, hu, -⟩ := (wf_iff m).mp h
  simp only [Memory.read, Memory.write, lookup_drop_same a hu]
  split
  · rename_i hv
    simp [lookup_drop_same a hc, hv]
  · simp

theorem read_write_other {a b : Nat} (m : Memory) (v : Byte) (h : b ≠ a) : (m.write a v).read b = m.read b := by
  simp only [Memory.read, Memory.write, lookup_drop_other _ h]
  split
  · rfl
  · split
    · rw [lookup_drop_other _ h]
    · rw [lookup_put_other _ _ h]

theorem read_forget_other {a b : Nat} (m : Memory) (draw : Nat) (h : b ≠ a) :
    (m.forget draw a).read b = m.read b := by
  simp only [Memory.read, Memory.forget, lookup_put_other _ _ h, lookup_drop_other _ h]

theorem read_forget_same (m : Memory) (draw a : Nat) : (m.forget draw a).read a = Config.freeByte draw a := by
  simp [Memory.read, Memory.forget]

/-- A forgotten span leaves every byte outside it alone. -/
theorem read_forgetSpan_other {m : Memory} {draw base size b : Nat}
    (h : ∀ i, i < size → b ≠ wrapAddr (base + i)) : (m.forgetSpan draw base size).read b = m.read b := by
  induction size with
  | zero => rfl
  | succ n ih =>
    rw [forgetSpan_succ, read_forget_other _ _ (h n (by omega))]
    exact ih (fun i hi => h i (by omega))

/-- Outside a span that does not pass the top of the address space, forgetting it changes nothing. -/
theorem read_forgetSpan_outside {m : Memory} {draw : Nat} {q : Span} {b : Nat}
    (hq : q.base + q.size ≤ Config.addrSpace) (h : q.has b = false) :
    (m.forgetSpan draw q.base q.size).read b = m.read b := by
  refine read_forgetSpan_other (fun i hi => ?_)
  rw [wrapAddr_of_lt (by omega)]
  rintro rfl
  have : q.has (q.base + i) = true := by simp [Span.has, hi]
  simp [this] at h

/-- A one-byte `MemWrite` is the byte write (20_memory R61). -/
theorem memWrite_one (m : Memory) (addr v : Nat) :
    memWrite m addr 1 v = m.write (wrapAddr addr) (BitVec.ofNat 8 v) := rfl

/-- `MemWrite` keeps the canonical form. -/
theorem memWrite_wf {m : Memory} (addr n v : Nat) (h : m.wf = true) : (memWrite m addr n v).wf = true := by
  induction n generalizing m addr v with
  | zero => exact h
  | succ k ih => exact ih _ _ (write_wf _ h (wrapAddr_lt _))


/-- Memory at reset is in canonical form. -/
theorem reset_mem_wf : State.reset.mem.wf = true := by decide

end Sys2Proof.Machine
end

