-- ==== Sys2Proof/Laws/Ops.lean ====
section
/-! SUPPORT. One lemma for each shared operation, saying once everything it can do; proofs cite these instead of
unfolding the operation. -/

namespace Sys2Proof.Machine

/-! ## Widths -/

theorem epb_pos (w : Width) : 0 < w.epb := by cases w <;> decide

theorem bits_mul_epb (w : Width) : w.bits * w.epb = 8 := by cases w <;> decide

/-! ## Packing -/

/-- What PACK does to memory: nothing, or one byte at the address of its position and channel. -/
theorem packByteStep_mem (t : Tag) (r : Regs) (pk : Byte) (m : Memory) (pos c lv : Nat) :
    (packByteStep t r pk m pos c lv).2 = m ∨
      ∃ v, (packByteStep t r pk m pos c lv).2 = m.write (packAddr t r pos c) v := by
  unfold packByteStep
  split
  · exact .inr ⟨_, rfl⟩
  · exact .inl rfl

theorem packByteStep_wf {t : Tag} {r : Regs} {pk : Byte} {m : Memory} {pos c lv : Nat} (h : m.wf = true) :
    (packByteStep t r pk m pos c lv).2.wf = true := by
  rcases packByteStep_mem t r pk m pos c lv with h' | ⟨v, h'⟩
  · rw [h']; exact h
  · rw [h']; exact write_wf v h (wrapAddr_lt _)

/-- PACK leaves every byte but the one of its position and channel alone. -/
theorem packByteStep_read {t : Tag} {r : Regs} {pk : Byte} {m : Memory} {pos c lv b : Nat}
    (h : b ≠ packAddr t r pos c) : (packByteStep t r pk m pos c lv).2.read b = m.read b := by
  rcases packByteStep_mem t r pk m pos c lv with h' | ⟨v, h'⟩
  · rw [h']
  · rw [h']; exact read_write_other m v h

/-- The pack register after PACK is 0 when the byte was emitted. -/
theorem packByteStep_pk {t : Tag} {r : Regs} {pk : Byte} {m : Memory} {pos c lv : Nat}
    (h : packEmits t.ob c = true) : (packByteStep t r pk m pos c lv).1 = 0#8 := by
  simp [packByteStep, h]

@[simp] theorem pack0_status (t : Tag) (pos c : Nat) (acc : Word) (s : State) :
    (pack0 t pos c acc s).status = s.status := rfl

@[simp] theorem pack0_regs (t : Tag) (pos c : Nat) (acc : Word) (s : State) :
    (pack0 t pos c acc s).regs = s.regs := rfl

@[simp] theorem pack0_seq (t : Tag) (pos c : Nat) (acc : Word) (s : State) :
    (pack0 t pos c acc s).seq = s.seq := rfl

@[simp] theorem pack0_acc0 (t : Tag) (pos c : Nat) (acc : Word) (s : State) :
    (pack0 t pos c acc s).acc0 = s.acc0 := rfl

@[simp] theorem pack0_acc1 (t : Tag) (pos c : Nat) (acc : Word) (s : State) :
    (pack0 t pos c acc s).acc1 = s.acc1 := rfl

@[simp] theorem pack0_acc2 (t : Tag) (pos c : Nat) (acc : Word) (s : State) :
    (pack0 t pos c acc s).acc2 = s.acc2 := rfl

@[simp] theorem pack0_acc3 (t : Tag) (pos c : Nat) (acc : Word) (s : State) :
    (pack0 t pos c acc s).acc3 = s.acc3 := rfl

@[simp] theorem pack0_pk1 (t : Tag) (pos c : Nat) (acc : Word) (s : State) :
    (pack0 t pos c acc s).pk1 = s.pk1 := rfl

@[simp] theorem pack0_col0 (t : Tag) (pos c : Nat) (acc : Word) (s : State) :
    (pack0 t pos c acc s).col0 = s.col0 := rfl

@[simp] theorem pack0_col1 (t : Tag) (pos c : Nat) (acc : Word) (s : State) :
    (pack0 t pos c acc s).col1 = s.col1 := rfl

@[simp] theorem pack0_holes (t : Tag) (pos c : Nat) (acc : Word) (s : State) :
    (pack0 t pos c acc s).holes = s.holes := rfl

@[simp] theorem pack0_pending (t : Tag) (pos c : Nat) (acc : Word) (s : State) :
    (pack0 t pos c acc s).pending = s.pending := rfl

@[simp] theorem pack0_rdata (t : Tag) (pos c : Nat) (acc : Word) (s : State) :
    (pack0 t pos c acc s).rdata = s.rdata := rfl

@[simp] theorem pack0_unseen (t : Tag) (pos c : Nat) (acc : Word) (s : State) :
    (pack0 t pos c acc s).unseen = s.unseen := rfl

@[simp] theorem pack0_draws (t : Tag) (pos c : Nat) (acc : Word) (s : State) :
    (pack0 t pos c acc s).draws = s.draws := rfl

theorem pack0_mem (t : Tag) (pos c : Nat) (acc : Word) (s : State) :
    (pack0 t pos c acc s).mem =
      (packByteStep t s.regs s.pk0 s.mem pos c (fold t s.regs s.mem c acc)).2 := rfl

theorem pack0_pk0 (t : Tag) (pos c : Nat) (acc : Word) (s : State) :
    (pack0 t pos c acc s).pk0 =
      (packByteStep t s.regs s.pk0 s.mem pos c (fold t s.regs s.mem c acc)).1 := rfl

@[simp] theorem pack1_status (t : Tag) (pos c : Nat) (acc : Word) (s : State) :
    (pack1 t pos c acc s).status = s.status := rfl

@[simp] theorem pack1_regs (t : Tag) (pos c : Nat) (acc : Word) (s : State) :
    (pack1 t pos c acc s).regs = s.regs := rfl

@[simp] theorem pack1_seq (t : Tag) (pos c : Nat) (acc : Word) (s : State) :
    (pack1 t pos c acc s).seq = s.seq := rfl

@[simp] theorem pack1_acc0 (t : Tag) (pos c : Nat) (acc : Word) (s : State) :
    (pack1 t pos c acc s).acc0 = s.acc0 := rfl

@[simp] theorem pack1_acc1 (t : Tag) (pos c : Nat) (acc : Word) (s : State) :
    (pack1 t pos c acc s).acc1 = s.acc1 := rfl

@[simp] theorem pack1_acc2 (t : Tag) (pos c : Nat) (acc : Word) (s : State) :
    (pack1 t pos c acc s).acc2 = s.acc2 := rfl

@[simp] theorem pack1_acc3 (t : Tag) (pos c : Nat) (acc : Word) (s : State) :
    (pack1 t pos c acc s).acc3 = s.acc3 := rfl

@[simp] theorem pack1_pk0 (t : Tag) (pos c : Nat) (acc : Word) (s : State) :
    (pack1 t pos c acc s).pk0 = s.pk0 := rfl

@[simp] theorem pack1_col0 (t : Tag) (pos c : Nat) (acc : Word) (s : State) :
    (pack1 t pos c acc s).col0 = s.col0 := rfl

@[simp] theorem pack1_col1 (t : Tag) (pos c : Nat) (acc : Word) (s : State) :
    (pack1 t pos c acc s).col1 = s.col1 := rfl

@[simp] theorem pack1_holes (t : Tag) (pos c : Nat) (acc : Word) (s : State) :
    (pack1 t pos c acc s).holes = s.holes := rfl

@[simp] theorem pack1_pending (t : Tag) (pos c : Nat) (acc : Word) (s : State) :
    (pack1 t pos c acc s).pending = s.pending := rfl

@[simp] theorem pack1_rdata (t : Tag) (pos c : Nat) (acc : Word) (s : State) :
    (pack1 t pos c acc s).rdata = s.rdata := rfl

@[simp] theorem pack1_unseen (t : Tag) (pos c : Nat) (acc : Word) (s : State) :
    (pack1 t pos c acc s).unseen = s.unseen := rfl

@[simp] theorem pack1_draws (t : Tag) (pos c : Nat) (acc : Word) (s : State) :
    (pack1 t pos c acc s).draws = s.draws := rfl

theorem pack1_mem (t : Tag) (pos c : Nat) (acc : Word) (s : State) :
    (pack1 t pos c acc s).mem =
      (packByteStep t s.regs s.pk1 s.mem pos c (fold t s.regs s.mem c acc)).2 := rfl

theorem pack1_pk1 (t : Tag) (pos c : Nat) (acc : Word) (s : State) :
    (pack1 t pos c acc s).pk1 =
      (packByteStep t s.regs s.pk1 s.mem pos c (fold t s.regs s.mem c acc)).1 := rfl

/-! ## The micro-steps -/

@[simp] theorem gather_status (t : Tag) (s : State) : (gather t s).status = s.status := by
  unfold gather; split <;> rfl

@[simp] theorem gather_regs (t : Tag) (s : State) : (gather t s).regs = s.regs := by
  unfold gather; split <;> rfl

@[simp] theorem gather_acc0 (t : Tag) (s : State) : (gather t s).acc0 = s.acc0 := by
  unfold gather; split <;> rfl

@[simp] theorem gather_acc1 (t : Tag) (s : State) : (gather t s).acc1 = s.acc1 := by
  unfold gather; split <;> rfl

@[simp] theorem gather_acc2 (t : Tag) (s : State) : (gather t s).acc2 = s.acc2 := by
  unfold gather; split <;> rfl

@[simp] theorem gather_acc3 (t : Tag) (s : State) : (gather t s).acc3 = s.acc3 := by
  unfold gather; split <;> rfl

@[simp] theorem gather_pk0 (t : Tag) (s : State) : (gather t s).pk0 = s.pk0 := by
  unfold gather; split <;> rfl

@[simp] theorem gather_pk1 (t : Tag) (s : State) : (gather t s).pk1 = s.pk1 := by
  unfold gather; split <;> rfl

@[simp] theorem gather_mem (t : Tag) (s : State) : (gather t s).mem = s.mem := by
  unfold gather; split <;> rfl

@[simp] theorem gather_holes (t : Tag) (s : State) : (gather t s).holes = s.holes := by
  unfold gather; split <;> rfl

@[simp] theorem gather_pending (t : Tag) (s : State) : (gather t s).pending = s.pending := by
  unfold gather; split <;> rfl

@[simp] theorem gather_rdata (t : Tag) (s : State) : (gather t s).rdata = s.rdata := by
  unfold gather; split <;> rfl

@[simp] theorem gather_unseen (t : Tag) (s : State) : (gather t s).unseen = s.unseen := by
  unfold gather; split <;> rfl

@[simp] theorem gather_draws (t : Tag) (s : State) : (gather t s).draws = s.draws := by
  unfold gather; split <;> rfl

@[simp] theorem dot2Step_status (t : Tag) (s : State) : (dot2Step t s).status = s.status := rfl

@[simp] theorem dot2Step_regs (t : Tag) (s : State) : (dot2Step t s).regs = s.regs := rfl

@[simp] theorem dot2Step_col0 (t : Tag) (s : State) : (dot2Step t s).col0 = s.col0 := rfl

@[simp] theorem dot2Step_col1 (t : Tag) (s : State) : (dot2Step t s).col1 = s.col1 := rfl

@[simp] theorem dot2Step_holes (t : Tag) (s : State) : (dot2Step t s).holes = s.holes := rfl

@[simp] theorem dot2Step_pending (t : Tag) (s : State) : (dot2Step t s).pending = s.pending := rfl

@[simp] theorem dot2Step_rdata (t : Tag) (s : State) : (dot2Step t s).rdata = s.rdata := rfl

@[simp] theorem dot2Step_unseen (t : Tag) (s : State) : (dot2Step t s).unseen = s.unseen := rfl

@[simp] theorem dot2Step_draws (t : Tag) (s : State) : (dot2Step t s).draws = s.draws := rfl

@[simp] theorem dot1Step_status (t : Tag) (s : State) : (dot1Step t s).status = s.status := rfl

@[simp] theorem dot1Step_regs (t : Tag) (s : State) : (dot1Step t s).regs = s.regs := rfl

@[simp] theorem dot1Step_acc1 (t : Tag) (s : State) : (dot1Step t s).acc1 = s.acc1 := rfl

@[simp] theorem dot1Step_acc2 (t : Tag) (s : State) : (dot1Step t s).acc2 = s.acc2 := rfl

@[simp] theorem dot1Step_acc3 (t : Tag) (s : State) : (dot1Step t s).acc3 = s.acc3 := rfl

@[simp] theorem dot1Step_pk1 (t : Tag) (s : State) : (dot1Step t s).pk1 = s.pk1 := rfl

@[simp] theorem dot1Step_col0 (t : Tag) (s : State) : (dot1Step t s).col0 = s.col0 := rfl

@[simp] theorem dot1Step_col1 (t : Tag) (s : State) : (dot1Step t s).col1 = s.col1 := rfl

@[simp] theorem dot1Step_holes (t : Tag) (s : State) : (dot1Step t s).holes = s.holes := rfl

@[simp] theorem dot1Step_pending (t : Tag) (s : State) : (dot1Step t s).pending = s.pending := rfl

@[simp] theorem dot1Step_rdata (t : Tag) (s : State) : (dot1Step t s).rdata = s.rdata := rfl

@[simp] theorem dot1Step_unseen (t : Tag) (s : State) : (dot1Step t s).unseen = s.unseen := rfl

@[simp] theorem dot1Step_draws (t : Tag) (s : State) : (dot1Step t s).draws = s.draws := rfl

@[simp] theorem gather_seq (t : Tag) (s : State) : (gather t s).seq = seqAfterGather s.regs s.seq := by
  unfold gather; split <;> rfl

@[simp] theorem dot2Step_seq (t : Tag) (s : State) : (dot2Step t s).seq = seqAfterDot2 s.regs s.seq := rfl

@[simp] theorem dot1Step_seq (t : Tag) (s : State) : (dot1Step t s).seq = seqAfterDot1 s.regs s.seq := rfl

theorem gather_col0 (t : Tag) (s : State) :
    (gather t s).col0 = if s.seq.fill = 0 then window t s.regs s.mem s.seq.pos else s.col0 := by
  unfold gather; split <;> rfl

theorem gather_col1 (t : Tag) (s : State) :
    (gather t s).col1 = if s.seq.fill = 0 then s.col1 else window t s.regs s.mem s.seq.pos := by
  unfold gather; split <;> rfl

theorem window_length (t : Tag) (r : Regs) (m : Memory) (pos : Nat) : (window t r m pos).length = r.len := by
  simp [window]

@[simp] theorem microStep_regs (t : Tag) (s : State) : (microStep t s).regs = s.regs := by
  unfold microStep; split <;> simp

@[simp] theorem microStep_holes (t : Tag) (s : State) : (microStep t s).holes = s.holes := by
  unfold microStep; split <;> simp

@[simp] theorem microStep_pending (t : Tag) (s : State) : (microStep t s).pending = s.pending := by
  unfold microStep; split <;> simp

@[simp] theorem microStep_rdata (t : Tag) (s : State) : (microStep t s).rdata = s.rdata := by
  unfold microStep; split <;> simp

@[simp] theorem microStep_unseen (t : Tag) (s : State) : (microStep t s).unseen = s.unseen := by
  unfold microStep; split <;> simp

@[simp] theorem microStep_draws (t : Tag) (s : State) : (microStep t s).draws = s.draws := by
  unfold microStep; split <;> simp

/-- A micro-step leaves STATE alone but for FINISH, which writes DONE. -/
theorem microStep_status (t : Tag) (s : State) :
    (microStep t s).status = if s.seq.phase = .finish then .done else s.status := by
  unfold microStep
  split <;> simp_all

/-- A run of micro-steps leaves the configuration and the host's fields alone. -/
theorem runCall_same (t : Tag) (n : Nat) (s : State) : SameOutside s (runCall t n s) := by
  induction n generalizing s with
  | zero => exact ⟨rfl, rfl, rfl, rfl⟩
  | succ k ih =>
    rw [runCall]
    split
    · simpa [SameOutside] using ih (microStep t s)
    · exact ⟨rfl, rfl, rfl, rfl⟩

/-- A run of micro-steps leaves the record of what the host has seen alone. -/
@[simp] theorem runCall_unseen (t : Tag) (n : Nat) (s : State) : (runCall t n s).unseen = s.unseen := by
  induction n generalizing s with
  | zero => rfl
  | succ k ih =>
    rw [runCall]
    split
    · rw [ih, microStep_unseen]
    · rfl

/-! ## START and the calls: one inversion lemma each -/

/-- Everything a launch can answer. -/
theorem launch_cases (t : Tag) (s : State) :
    (sizeOk t s.regs = false ∧ launch t s = .next (raise .sizeMismatch s)) ∨
    (sizeOk t s.regs = true ∧ inContract t s.regs s.mem = false ∧ launch t s = .refused .outOfContract) ∨
    (sizeOk t s.regs = true ∧ inContract t s.regs s.mem = true ∧ premiseH5 t s.regs s.holes = false ∧
      launch t s = .refused .unbackedRegion) ∨
    (sizeOk t s.regs = true ∧ inContract t s.regs s.mem = true ∧ premiseH5 t s.regs s.holes = true ∧
      launch t s = .next (accept t s)) := by
  unfold launch
  cases sizeOk t s.regs <;> cases inContract t s.regs s.mem <;> cases premiseH5 t s.regs s.holes <;> simp

/-- Everything a START can answer. -/
theorem startCommand_cases (s : State) :
    (acceptsStart s.status = false ∧ startCommand s = .next s) ∨
    (acceptsStart s.status = true ∧ (∃ q, modeDecode s.regs.modeW = .reserved q) ∧
      startCommand s = .next (raise .fault s)) ∨
    (acceptsStart s.status = true ∧ ∃ t, modeDecode s.regs.modeW = .legal t ∧ startCommand s = launch t s) := by
  unfold startCommand
  cases acceptsStart s.status <;> cases modeDecode s.regs.modeW <;> simp

/-- Everything a whole call can answer. -/
theorem convCall_cases (t : Tag) (s : State) :
    (acceptsStart s.status = false ∧ convCall t s = .next s) ∨
    (acceptsStart s.status = true ∧ ∃ q, launch t s = .refused q ∧ convCall t s = .refused q) ∨
    (acceptsStart s.status = true ∧ ∃ u, launch t s = .next u ∧
      convCall t s = .next (runCall t (callSteps s.regs) u)) := by
  unfold convCall
  rcases launch_cases t s with ⟨-, h⟩ | ⟨-, -, h⟩ | ⟨-, -, -, h⟩ | ⟨-, -, -, h⟩ <;>
    cases acceptsStart s.status <;> simp [h]

/-- Everything the block's turn can answer. -/
theorem blockStep_cases (s : State) :
    (s.status ≠ .busy ∧ blockStep s = .next s) ∨
    (s.status = .busy ∧ ∃ t, modeDecode s.regs.modeW = .legal t ∧ blockStep s = .next (microStep t s)) ∨
    (s.status = .busy ∧ (∃ q, modeDecode s.regs.modeW = .reserved q) ∧
      blockStep s = .refused .busyReservedMode) := by
  unfold blockStep
  by_cases h : s.status = .busy <;> cases hm : modeDecode s.regs.modeW <;> simp [h]

/-- A register write changes the configuration only, and nothing while BUSY. -/
theorem writeReg_cases (s : State) (off : Nat) (v : Word) :
    (s.status = .busy ∧ writeReg s off v = s) ∨
    (s.status ≠ .busy ∧ writeReg s off v = { s with regs := s.regs.write off v }) := by
  unfold writeReg
  by_cases h : s.status = .busy <;> simp [h]

/-- Every register read that answers a next state changes only `rdata` and the record of what the host has seen. -/
theorem hostRead_next {off width : Nat} {s u : State} (h : hostRead off width s = .next u) :
    regAccessOk off width = true ∧
      u = { s with rdata := readReg s off, unseen := if showsCompletion s off then [] else s.unseen } := by
  unfold hostRead at h
  split at h
  · injection h with h
    exact ⟨‹_›, h.symm⟩
  · cases h

/-- Everything a POLL can answer. -/
theorem hostPoll_cases (rest : List HostOp) (s : State) :
    (s.status = .busy ∧ hostPoll rest s = blockStep s) ∨
    (s.status ≠ .busy ∧ hostPoll rest s =
      .next { s with pending := rest, rdata := statusCode s.status, unseen := [] }) := by
  unfold hostPoll
  by_cases h : s.status = .busy
  · simp [h]
  · refine .inr ⟨h, ?_⟩
    simp [h, hostRead, regAccessOk, Config.regBlockSize, showsCompletion, readReg]

/-- Every host read of memory that answers a next state changes only `rdata` and `draws`. -/
theorem hostMemRead_next {a : Addr} {s u : State} (h : hostMemRead a s = .next u) :
    ∃ v d, u = { s with rdata := v, draws := d } := by
  unfold hostMemRead at h
  split at h
  · cases h
  · split at h <;> cases h
    · exact ⟨_, _, rfl⟩
    · exact ⟨_, s.draws, rfl⟩

/-- Every host write of memory that answers a next state writes one byte, outside the call's regions while BUSY. -/
theorem hostMemWrite_next {a : Addr} {v : Byte} {s u : State} (h : hostMemWrite a v s = .next u) :
    u = { s with mem := s.mem.write a.toNat v } ∧ ¬ (s.status = .busy ∧ inCallRegion s a.toNat = true) := by
  unfold hostMemWrite at h
  split at h
  · cases h
  · split at h <;> cases h
    exact ⟨rfl, ‹_›⟩

/-! ## The regions of a call -/

/-- A byte PACK emits inside region OUT lies in it: no wrap under premise H3 (44_requant_pack R281). -/
theorem packAddr_eq {t : Tag} {r : Regs} {pos c : Nat}
    (h : r.outBase.toNat + (pos * r.co + c) / t.ob.epb < Config.addrSpace) :
    packAddr t r pos c = r.outBase.toNat + (pos * r.co + c) / t.ob.epb := wrapAddr_of_lt h

/-- The size check, term by term (40_host_commands R125). -/
theorem sizeOk_iff (t : Tag) (r : Regs) :
    sizeOk t r = true ↔ r.ci % t.ib.epb = 0 ∧ r.ci % t.wb.epb = 0 ∧ r.co % t.ob.epb = 0 ∧ r.co % 2 = 0 := by
  simp [sizeOk, sizeOkCounts, and_assoc]

/-- The contract's premises, one by one (40_host_commands R126). -/
theorem inContract_iff (t : Tag) (r : Regs) (m : Memory) :
    inContract t r m = true ↔ premiseH1 r = true ∧ premiseH2 r = true ∧ premiseH3 t r = true ∧
      premiseH4 t r = true ∧ premiseH6 t r m = true := by
  simp [inContract, and_assoc]

/-- Premise H1, term by term. -/
theorem premiseH1_iff (r : Regs) :
    premiseH1 r = true ↔ 1 ≤ r.di ∧ 1 ≤ r.ci ∧ 1 ≤ r.co ∧ 1 ≤ r.k ∧ 1 ≤ r.s := by
  simp [premiseH1, and_assoc]

/-- Premise H2, term by term. -/
theorem premiseH2_iff (r : Regs) :
    premiseH2 r = true ↔ r.k ≤ r.di + r.pt + r.pb ∧ r.k ≤ r.di + r.pl + r.pr := by
  simp [premiseH2]

/-- An address of one of two disjoint spans is not in the other. -/
theorem disjoint_has {q p : Span} (h : q.disjoint p = true) {a : Nat} (ha : q.has a = true) : p.has a = false := by
  simp only [Span.disjoint, Bool.or_eq_true, beq_iff_eq, decide_eq_true_eq] at h
  simp only [Span.has, Bool.and_eq_true, decide_eq_true_eq] at ha
  simp only [Span.has, Bool.and_eq_false_imp, decide_eq_true_eq, decide_eq_false_iff_not]
  omega

end Sys2Proof.Machine
end

