-- ==== Sys2Proof/Laws/PerInstr.lean ====
section
/-! SUPPORT. Statements for all instructions, one lemma per constructor. `EncodingFits` says that an encoding sets no
bit that its format ignores or does not store (30_encoding R91). -/

namespace Sys2Proof.Laws

/-- The bits of a word its format decodes: OP[3:0] of a CMD word, MODE[7:0] of a MODE word (30_encoding R91, R104). -/
def formatBound (p : Port) : Nat :=
  match p with
  | .cmd => 16
  | .mode => 256

/-- The bound on a MODE word the encoder builds. -/
theorem modeWord_lt (z : Bool) (opcode : BitVec 7) : (modeWord z opcode).toNat < 256 := by
  have h := (BitVec.ofBool z ++ opcode : BitVec 8).isLt
  rw [modeWord, BitVec.toNat_append]
  simp only [BitVec.toNat_zero, Nat.zero_shiftLeft, Nat.zero_or]
  exact h

/-- The encoding of the instruction sets only bits its format decodes. -/
def EncodingFits.Statement (i : Instr) : Prop := (encode i).2.toNat < formatBound (encode i).1

theorem EncodingFits.convI2W2O2Thr (z : Bool) : EncodingFits.Statement (.convI2W2O2Thr z) :=
  modeWord_lt z _

theorem EncodingFits.convI4W2O2Thr (z : Bool) : EncodingFits.Statement (.convI4W2O2Thr z) :=
  modeWord_lt z _

theorem EncodingFits.convI8W2O2Thr (z : Bool) : EncodingFits.Statement (.convI8W2O2Thr z) :=
  modeWord_lt z _

theorem EncodingFits.convI2W4O2Thr (z : Bool) : EncodingFits.Statement (.convI2W4O2Thr z) :=
  modeWord_lt z _

theorem EncodingFits.convI4W4O2Thr (z : Bool) : EncodingFits.Statement (.convI4W4O2Thr z) :=
  modeWord_lt z _

theorem EncodingFits.convI8W4O2Thr (z : Bool) : EncodingFits.Statement (.convI8W4O2Thr z) :=
  modeWord_lt z _

theorem EncodingFits.convI2W8O2Thr (z : Bool) : EncodingFits.Statement (.convI2W8O2Thr z) :=
  modeWord_lt z _

theorem EncodingFits.convI4W8O2Thr (z : Bool) : EncodingFits.Statement (.convI4W8O2Thr z) :=
  modeWord_lt z _

theorem EncodingFits.convI8W8O2Thr (z : Bool) : EncodingFits.Statement (.convI8W8O2Thr z) :=
  modeWord_lt z _

theorem EncodingFits.convI2W2O4Thr (z : Bool) : EncodingFits.Statement (.convI2W2O4Thr z) :=
  modeWord_lt z _

theorem EncodingFits.convI4W2O4Thr (z : Bool) : EncodingFits.Statement (.convI4W2O4Thr z) :=
  modeWord_lt z _

theorem EncodingFits.convI8W2O4Thr (z : Bool) : EncodingFits.Statement (.convI8W2O4Thr z) :=
  modeWord_lt z _

theorem EncodingFits.convI2W4O4Thr (z : Bool) : EncodingFits.Statement (.convI2W4O4Thr z) :=
  modeWord_lt z _

theorem EncodingFits.convI4W4O4Thr (z : Bool) : EncodingFits.Statement (.convI4W4O4Thr z) :=
  modeWord_lt z _

theorem EncodingFits.convI8W4O4Thr (z : Bool) : EncodingFits.Statement (.convI8W4O4Thr z) :=
  modeWord_lt z _

theorem EncodingFits.convI2W8O4Thr (z : Bool) : EncodingFits.Statement (.convI2W8O4Thr z) :=
  modeWord_lt z _

theorem EncodingFits.convI4W8O4Thr (z : Bool) : EncodingFits.Statement (.convI4W8O4Thr z) :=
  modeWord_lt z _

theorem EncodingFits.convI8W8O4Thr (z : Bool) : EncodingFits.Statement (.convI8W8O4Thr z) :=
  modeWord_lt z _

theorem EncodingFits.convI2W2O2Icn (z : Bool) : EncodingFits.Statement (.convI2W2O2Icn z) :=
  modeWord_lt z _

theorem EncodingFits.convI4W2O2Icn (z : Bool) : EncodingFits.Statement (.convI4W2O2Icn z) :=
  modeWord_lt z _

theorem EncodingFits.convI8W2O2Icn (z : Bool) : EncodingFits.Statement (.convI8W2O2Icn z) :=
  modeWord_lt z _

theorem EncodingFits.convI2W4O2Icn (z : Bool) : EncodingFits.Statement (.convI2W4O2Icn z) :=
  modeWord_lt z _

theorem EncodingFits.convI4W4O2Icn (z : Bool) : EncodingFits.Statement (.convI4W4O2Icn z) :=
  modeWord_lt z _

theorem EncodingFits.convI8W4O2Icn (z : Bool) : EncodingFits.Statement (.convI8W4O2Icn z) :=
  modeWord_lt z _

theorem EncodingFits.convI2W8O2Icn (z : Bool) : EncodingFits.Statement (.convI2W8O2Icn z) :=
  modeWord_lt z _

theorem EncodingFits.convI4W8O2Icn (z : Bool) : EncodingFits.Statement (.convI4W8O2Icn z) :=
  modeWord_lt z _

theorem EncodingFits.convI8W8O2Icn (z : Bool) : EncodingFits.Statement (.convI8W8O2Icn z) :=
  modeWord_lt z _

theorem EncodingFits.convI2W2O4Icn (z : Bool) : EncodingFits.Statement (.convI2W2O4Icn z) :=
  modeWord_lt z _

theorem EncodingFits.convI4W2O4Icn (z : Bool) : EncodingFits.Statement (.convI4W2O4Icn z) :=
  modeWord_lt z _

theorem EncodingFits.convI8W2O4Icn (z : Bool) : EncodingFits.Statement (.convI8W2O4Icn z) :=
  modeWord_lt z _

theorem EncodingFits.convI2W4O4Icn (z : Bool) : EncodingFits.Statement (.convI2W4O4Icn z) :=
  modeWord_lt z _

theorem EncodingFits.convI4W4O4Icn (z : Bool) : EncodingFits.Statement (.convI4W4O4Icn z) :=
  modeWord_lt z _

theorem EncodingFits.convI8W4O4Icn (z : Bool) : EncodingFits.Statement (.convI8W4O4Icn z) :=
  modeWord_lt z _

theorem EncodingFits.convI2W8O4Icn (z : Bool) : EncodingFits.Statement (.convI2W8O4Icn z) :=
  modeWord_lt z _

theorem EncodingFits.convI4W8O4Icn (z : Bool) : EncodingFits.Statement (.convI4W8O4Icn z) :=
  modeWord_lt z _

theorem EncodingFits.convI8W8O4Icn (z : Bool) : EncodingFits.Statement (.convI8W8O4Icn z) :=
  modeWord_lt z _

theorem EncodingFits.convI2W2O8Icn (z : Bool) : EncodingFits.Statement (.convI2W2O8Icn z) :=
  modeWord_lt z _

theorem EncodingFits.convI4W2O8Icn (z : Bool) : EncodingFits.Statement (.convI4W2O8Icn z) :=
  modeWord_lt z _

theorem EncodingFits.convI8W2O8Icn (z : Bool) : EncodingFits.Statement (.convI8W2O8Icn z) :=
  modeWord_lt z _

theorem EncodingFits.convI2W4O8Icn (z : Bool) : EncodingFits.Statement (.convI2W4O8Icn z) :=
  modeWord_lt z _

theorem EncodingFits.convI4W4O8Icn (z : Bool) : EncodingFits.Statement (.convI4W4O8Icn z) :=
  modeWord_lt z _

theorem EncodingFits.convI8W4O8Icn (z : Bool) : EncodingFits.Statement (.convI8W4O8Icn z) :=
  modeWord_lt z _

theorem EncodingFits.convI2W8O8Icn (z : Bool) : EncodingFits.Statement (.convI2W8O8Icn z) :=
  modeWord_lt z _

theorem EncodingFits.convI4W8O8Icn (z : Bool) : EncodingFits.Statement (.convI4W8O8Icn z) :=
  modeWord_lt z _

theorem EncodingFits.convI8W8O8Icn (z : Bool) : EncodingFits.Statement (.convI8W8O8Icn z) :=
  modeWord_lt z _

theorem EncodingFits.rsvdThrO8x20 (z : Bool) : EncodingFits.Statement (.rsvdThrO8x20 z) :=
  modeWord_lt z _

theorem EncodingFits.rsvdThrO8x21 (z : Bool) : EncodingFits.Statement (.rsvdThrO8x21 z) :=
  modeWord_lt z _

theorem EncodingFits.rsvdThrO8x22 (z : Bool) : EncodingFits.Statement (.rsvdThrO8x22 z) :=
  modeWord_lt z _

theorem EncodingFits.rsvdThrO8x24 (z : Bool) : EncodingFits.Statement (.rsvdThrO8x24 z) :=
  modeWord_lt z _

theorem EncodingFits.rsvdThrO8x25 (z : Bool) : EncodingFits.Statement (.rsvdThrO8x25 z) :=
  modeWord_lt z _

theorem EncodingFits.rsvdThrO8x26 (z : Bool) : EncodingFits.Statement (.rsvdThrO8x26 z) :=
  modeWord_lt z _

theorem EncodingFits.rsvdThrO8x28 (z : Bool) : EncodingFits.Statement (.rsvdThrO8x28 z) :=
  modeWord_lt z _

theorem EncodingFits.rsvdThrO8x29 (z : Bool) : EncodingFits.Statement (.rsvdThrO8x29 z) :=
  modeWord_lt z _

theorem EncodingFits.rsvdThrO8x2A (z : Bool) : EncodingFits.Statement (.rsvdThrO8x2A z) :=
  modeWord_lt z _

theorem EncodingFits.rsvdWidthIb3 (z fold : Bool) (ob wb : BitVec 2) : EncodingFits.Statement (.rsvdWidthIb3 z fold ob wb) :=
  modeWord_lt z _

theorem EncodingFits.rsvdWidthWb3 (z fold : Bool) (ob ib : BitVec 2) : EncodingFits.Statement (.rsvdWidthWb3 z fold ob ib) :=
  modeWord_lt z _

theorem EncodingFits.rsvdWidthOb3 (z fold : Bool) (wb ib : BitVec 2) : EncodingFits.Statement (.rsvdWidthOb3 z fold wb ib) :=
  modeWord_lt z _

theorem EncodingFits.start : EncodingFits.Statement .start := by unfold EncodingFits.Statement; decide

theorem EncodingFits.cmdNop0 : EncodingFits.Statement .cmdNop0 := by unfold EncodingFits.Statement; decide

theorem EncodingFits.cmdRsvd2 : EncodingFits.Statement .cmdRsvd2 := by unfold EncodingFits.Statement; decide

theorem EncodingFits.cmdRsvd3 : EncodingFits.Statement .cmdRsvd3 := by unfold EncodingFits.Statement; decide

theorem EncodingFits.cmdRsvd4 : EncodingFits.Statement .cmdRsvd4 := by unfold EncodingFits.Statement; decide

theorem EncodingFits.cmdRsvd5 : EncodingFits.Statement .cmdRsvd5 := by unfold EncodingFits.Statement; decide

theorem EncodingFits.cmdRsvd6 : EncodingFits.Statement .cmdRsvd6 := by unfold EncodingFits.Statement; decide

theorem EncodingFits.cmdRsvd7 : EncodingFits.Statement .cmdRsvd7 := by unfold EncodingFits.Statement; decide

theorem EncodingFits.cmdRsvd8 : EncodingFits.Statement .cmdRsvd8 := by unfold EncodingFits.Statement; decide

theorem EncodingFits.cmdRsvd9 : EncodingFits.Statement .cmdRsvd9 := by unfold EncodingFits.Statement; decide

theorem EncodingFits.cmdRsvd10 : EncodingFits.Statement .cmdRsvd10 := by unfold EncodingFits.Statement; decide

theorem EncodingFits.cmdRsvd11 : EncodingFits.Statement .cmdRsvd11 := by unfold EncodingFits.Statement; decide

theorem EncodingFits.cmdRsvd12 : EncodingFits.Statement .cmdRsvd12 := by unfold EncodingFits.Statement; decide

theorem EncodingFits.cmdRsvd13 : EncodingFits.Statement .cmdRsvd13 := by unfold EncodingFits.Statement; decide

theorem EncodingFits.cmdRsvd14 : EncodingFits.Statement .cmdRsvd14 := by unfold EncodingFits.Statement; decide

theorem EncodingFits.cmdRsvd15 : EncodingFits.Statement .cmdRsvd15 := by unfold EncodingFits.Statement; decide

end Sys2Proof.Laws
end

