-- ==== Sys2Proof/Laws/Step.lean ====
section
/-! SUPPORT. Said once: which shared operation each instruction is, and everything one step can do. -/

namespace Sys2Proof.Laws

open Sys2Proof.Machine

/-- A convolution is the whole call with its own constants. -/
theorem exec_conv {i : Instr} {t : Tag} (h : i.tag? = some t) (s : State) : exec i s = convCall t s := by
  cases i <;> first | (injection h with h; subst h; rfl) | cases h

/-- Every instruction is a whole call, a reserved mode, START, or does nothing. -/
theorem exec_cases (i : Instr) (s : State) :
    (∃ t, i.tag? = some t ∧ exec i s = convCall t s) ∨ (i.tag? = none ∧ exec i s = reservedMode s) ∨
    (i = .start ∧ exec i s = startCommand s) ∨ exec i s = .next s := by
  cases i <;> first
    | exact .inl ⟨_, rfl, rfl⟩
    | exact .inr (.inl ⟨rfl, rfl⟩)
    | exact .inr (.inr (.inl ⟨rfl, rfl⟩))
    | exact .inr (.inr (.inr rfl))

/-- A reserved mode raises FAULT where a START is acted on, and does nothing elsewhere. -/
theorem reservedMode_cases (s : State) :
    (acceptsStart s.status = true ∧ reservedMode s = .next { s with status := .fault }) ∨
    (acceptsStart s.status = false ∧ reservedMode s = .next s) := by
  unfold reservedMode
  cases h : acceptsStart s.status
  · exact .inr ⟨rfl, rfl⟩
  · exact .inl ⟨rfl, rfl⟩

/-- Everything a step that answers a next state can be. -/
theorem step_cases {s u : State} (h : step s = .next u) :
    (∃ rest, (s.pending = [] ∧ rest = [] ∨ s.pending = .blockTurn :: rest) ∧
      blockStep { s with pending := rest } = .next u) ∨
    (∃ off rest, s.pending = .rd off 4 :: rest ∧ off % 4 = 0 ∧ off < 256 ∧
      u = { s with pending := rest, rdata := readReg s off,
                   unseen := if showsCompletion { s with pending := rest } off then [] else s.unseen }) ∨
    (∃ v rest, s.pending = .wr 0 4 v :: rest ∧ exec (decode .cmd v) { s with pending := rest } = .next u) ∨
    (∃ off v rest, s.pending = .wr off 4 v :: rest ∧ off ≠ 0 ∧ off % 4 = 0 ∧ off < 256 ∧
      u = writeReg { s with pending := rest } off v) ∨
    (∃ w rest, s.pending = .call w :: rest ∧
      exec (decode .mode w) (writeReg { s with pending := .poll :: rest } 0x08 w) = .next u) ∨
    (∃ rest, s.pending = .poll :: rest ∧ hostPoll rest s = .next u) ∨
    (∃ a rest, s.pending = .memRd a :: rest ∧ hostMemRead a { s with pending := rest } = .next u) ∨
    (∃ a v rest, s.pending = .memWr a v :: rest ∧ hostMemWrite a v { s with pending := rest } = .next u) ∨
    (∃ rest, s.pending = .reset :: rest ∧ u = resetBlock { s with pending := rest }) := by
  have hacc : ∀ off width, regAccessOk off width = true → width = 4 ∧ off % 4 = 0 ∧ off < 256 := by
    intro off width hk
    simp only [regAccessOk, Bool.and_eq_true, beq_iff_eq, decide_eq_true_eq] at hk
    exact ⟨hk.1.1, hk.1.2, hk.2⟩
  unfold step fetch at h
  cases hp : s.pending with
  | nil =>
    rw [hp] at h
    exact .inl ⟨[], .inl ⟨rfl, rfl⟩, by simpa [← hp] using h⟩
  | cons op rest =>
    rw [hp] at h
    cases op with
    | rd off width =>
      simp only [hostRead] at h
      split at h
      · obtain ⟨rfl, h1, h2⟩ := hacc _ _ ‹_›
        exact .inr (.inl ⟨off, rest, rfl, h1, h2, by injection h with h; exact h.symm⟩)
      · cases h
    | wr off width v =>
      cases hk : regAccessOk off width
      · simp [hk] at h
      · obtain ⟨rfl, h1, h2⟩ := hacc _ _ hk
        simp only [hk, Bool.true_eq_false, if_false] at h
        by_cases h0 : off = 0
        · subst h0
          exact .inr (.inr (.inl ⟨v, rest, rfl, by simpa using h⟩))
        · simp only [h0, if_false] at h
          exact .inr (.inr (.inr (.inl ⟨off, v, rest, rfl, h0, h1, h2, by injection h with h; exact h.symm⟩)))
    | call w => exact .inr (.inr (.inr (.inr (.inl ⟨w, rest, rfl, h⟩))))
    | poll => exact .inr (.inr (.inr (.inr (.inr (.inl ⟨rest, rfl, h⟩)))))
    | memRd a => exact .inr (.inr (.inr (.inr (.inr (.inr (.inl ⟨a, rest, rfl, h⟩))))))
    | memWr a v => exact .inr (.inr (.inr (.inr (.inr (.inr (.inr (.inl ⟨a, v, rest, rfl, h⟩)))))))
    | reset =>
      exact .inr (.inr (.inr (.inr (.inr (.inr (.inr (.inr ⟨rest, rfl, by injection h with h; exact h.symm⟩)))))))
    | blockTurn => exact .inl ⟨rest, .inr rfl, h⟩

end Sys2Proof.Laws
end

