-- ==== Sys2Proof/Tests/Slice0.lean ====
section
/-! SUPPORT. The model's own tests: the WellFormed smoke, words written out from 30_encoding R91, R96 to R98, the vectors
of 95_test_vectors, one-step tests on small states, and a witness for the hypotheses of every statement. Every expected
value is the spec's, or a hand calculation from the rule a docstring names. -/

namespace Sys2Proof.Tests

open Sys2Proof.Machine

-- One theorem at a time: checked all at once they reserve more memory than the build allows.
set_option Elab.async false

/-! ## WellFormed: each check refuses an ill-formed term -/

/-- WB3 with IB code 3 is IB3's word. -/
theorem test_wf_refuses_wb3_with_ib3 : (Instr.rsvdWidthWb3 false false 0#2 3#2).wf = false := by decide

/-- OB3 with IB code 3 is IB3's word. -/
theorem test_wf_refuses_ob3_with_ib3 : (Instr.rsvdWidthOb3 true false 0#2 3#2).wf = false := by decide

/-- OB3 with WB code 3 is WB3's word. -/
theorem test_wf_refuses_ob3_with_wb3 : (Instr.rsvdWidthOb3 true true 3#2 1#2).wf = false := by decide

/-- The words those terms would encode are read as the earlier row. -/
theorem test_overlapping_words_have_one_reading :
    decode .mode 0x0F#32 = .rsvdWidthIb3 false false 0#2 3#2 ∧
    decode .mode 0x3C#32 = .rsvdWidthWb3 false false 3#2 0#2 := by decide +kernel

/-! ## Decoding: words written out from 30_encoding R96 to R98, every constructor -/

/-- R96: `MODE[6:0] = fold*64 + obcode*16 + wbcode*4 + ibcode`, FOLD = 0, ZWM = 0. -/
theorem test_decode_thr :
    [
    0x00#32, 0x01#32, 0x02#32, 0x04#32, 0x05#32, 0x06#32, 0x08#32, 0x09#32, 0x0A#32, 0x10#32, 0x11#32, 0x12#32,
    0x14#32, 0x15#32, 0x16#32, 0x18#32, 0x19#32, 0x1A#32].map (decode .mode) = [
    .convI2W2O2Thr false, .convI4W2O2Thr false, .convI8W2O2Thr false, .convI2W4O2Thr false, .convI4W4O2Thr false,
    .convI8W4O2Thr false, .convI2W8O2Thr false, .convI4W8O2Thr false, .convI8W8O2Thr false, .convI2W2O4Thr false,
    .convI4W2O4Thr false, .convI8W2O4Thr false, .convI2W4O4Thr false, .convI4W4O4Thr false, .convI8W4O4Thr false,
    .convI2W8O4Thr false, .convI4W8O4Thr false, .convI8W8O4Thr false] := by decide +kernel

/-- The same rows with ZWM = 1, bit 7 (R95). -/
theorem test_decode_thr_pc :
    [
    0x80#32, 0x81#32, 0x82#32, 0x84#32, 0x85#32, 0x86#32, 0x88#32, 0x89#32, 0x8A#32, 0x90#32, 0x91#32, 0x92#32,
    0x94#32, 0x95#32, 0x96#32, 0x98#32, 0x99#32, 0x9A#32].map (decode .mode) = [
    .convI2W2O2Thr true, .convI4W2O2Thr true, .convI8W2O2Thr true, .convI2W4O2Thr true, .convI4W4O2Thr true,
    .convI8W4O2Thr true, .convI2W8O2Thr true, .convI4W8O2Thr true, .convI8W8O2Thr true, .convI2W2O4Thr true,
    .convI4W2O4Thr true, .convI8W2O4Thr true, .convI2W4O4Thr true, .convI4W4O4Thr true, .convI8W4O4Thr true,
    .convI2W8O4Thr true, .convI4W8O4Thr true, .convI8W8O4Thr true] := by decide +kernel

/-- R96, FOLD = 1, ZWM = 0. -/
theorem test_decode_icn :
    [
    0x40#32, 0x41#32, 0x42#32, 0x44#32, 0x45#32, 0x46#32, 0x48#32, 0x49#32, 0x4A#32, 0x50#32, 0x51#32, 0x52#32,
    0x54#32, 0x55#32, 0x56#32, 0x58#32, 0x59#32, 0x5A#32, 0x60#32, 0x61#32, 0x62#32, 0x64#32, 0x65#32, 0x66#32,
    0x68#32, 0x69#32, 0x6A#32].map (decode .mode) = [
    .convI2W2O2Icn false, .convI4W2O2Icn false, .convI8W2O2Icn false, .convI2W4O2Icn false, .convI4W4O2Icn false,
    .convI8W4O2Icn false, .convI2W8O2Icn false, .convI4W8O2Icn false, .convI8W8O2Icn false, .convI2W2O4Icn false,
    .convI4W2O4Icn false, .convI8W2O4Icn false, .convI2W4O4Icn false, .convI4W4O4Icn false, .convI8W4O4Icn false,
    .convI2W8O4Icn false, .convI4W8O4Icn false, .convI8W8O4Icn false, .convI2W2O8Icn false, .convI4W2O8Icn false,
    .convI8W2O8Icn false, .convI2W4O8Icn false, .convI4W4O8Icn false, .convI8W4O8Icn false, .convI2W8O8Icn false,
    .convI4W8O8Icn false, .convI8W8O8Icn false] := by decide +kernel

/-- The same rows with ZWM = 1. -/
theorem test_decode_icn_pc :
    [
    0xC0#32, 0xC1#32, 0xC2#32, 0xC4#32, 0xC5#32, 0xC6#32, 0xC8#32, 0xC9#32, 0xCA#32, 0xD0#32, 0xD1#32, 0xD2#32,
    0xD4#32, 0xD5#32, 0xD6#32, 0xD8#32, 0xD9#32, 0xDA#32, 0xE0#32, 0xE1#32, 0xE2#32, 0xE4#32, 0xE5#32, 0xE6#32,
    0xE8#32, 0xE9#32, 0xEA#32].map (decode .mode) = [
    .convI2W2O2Icn true, .convI4W2O2Icn true, .convI8W2O2Icn true, .convI2W4O2Icn true, .convI4W4O2Icn true,
    .convI8W4O2Icn true, .convI2W8O2Icn true, .convI4W8O2Icn true, .convI8W8O2Icn true, .convI2W2O4Icn true,
    .convI4W2O4Icn true, .convI8W2O4Icn true, .convI2W4O4Icn true, .convI4W4O4Icn true, .convI8W4O4Icn true,
    .convI2W8O4Icn true, .convI4W8O4Icn true, .convI8W8O4Icn true, .convI2W2O8Icn true, .convI4W2O8Icn true,
    .convI8W2O8Icn true, .convI2W4O8Icn true, .convI4W4O8Icn true, .convI8W4O8Icn true, .convI2W8O8Icn true,
    .convI4W8O8Icn true, .convI8W8O8Icn true] := by decide +kernel

/-- R97 (b): the nine reserved values, ZWM = 0. -/
theorem test_decode_thr_out8 :
    [
    0x20#32, 0x21#32, 0x22#32, 0x24#32, 0x25#32, 0x26#32, 0x28#32, 0x29#32, 0x2A#32].map (decode .mode) = [
    .rsvdThrO8x20 false, .rsvdThrO8x21 false, .rsvdThrO8x22 false, .rsvdThrO8x24 false, .rsvdThrO8x25 false,
    .rsvdThrO8x26 false, .rsvdThrO8x28 false, .rsvdThrO8x29 false, .rsvdThrO8x2A false] := by decide +kernel

/-- R97 (b) with ZWM = 1. -/
theorem test_decode_thr_out8_pc :
    [
    0xA0#32, 0xA1#32, 0xA2#32, 0xA4#32, 0xA5#32, 0xA6#32, 0xA8#32, 0xA9#32, 0xAA#32].map (decode .mode) = [
    .rsvdThrO8x20 true, .rsvdThrO8x21 true, .rsvdThrO8x22 true, .rsvdThrO8x24 true, .rsvdThrO8x25 true,
    .rsvdThrO8x26 true, .rsvdThrO8x28 true, .rsvdThrO8x29 true, .rsvdThrO8x2A true] := by decide +kernel

/-- R97 (a): `0x03`, `0x0C`, `0x30`, `0x7F` of 95 vector set B, and `0xB9` = ZWM 1, FOLD 0, OB 3, WB 2, IB 1. -/
theorem test_decode_width_code_3 :
    [0x03#32, 0x0C#32, 0x30#32, 0x7F#32, 0xB9#32].map (decode .mode) =
      [.rsvdWidthIb3 false false 0#2 0#2, .rsvdWidthWb3 false false 0#2 0#2, .rsvdWidthOb3 false false 0#2 0#2,
       .rsvdWidthIb3 false true 3#2 3#2, .rsvdWidthOb3 true false 2#2 1#2] := by decide +kernel

/-- R98: OP = 1 is START, every other OP is reserved. -/
theorem test_decode_commands :
    [0#32, 1#32, 2#32, 3#32, 4#32, 5#32, 6#32, 7#32, 8#32, 9#32, 10#32, 11#32, 12#32, 13#32, 14#32, 15#32].map
      (decode .cmd) =
    [.cmdNop0, .start, .cmdRsvd2, .cmdRsvd3, .cmdRsvd4, .cmdRsvd5, .cmdRsvd6, .cmdRsvd7, .cmdRsvd8, .cmdRsvd9,
     .cmdRsvd10, .cmdRsvd11, .cmdRsvd12, .cmdRsvd13, .cmdRsvd14, .cmdRsvd15] := by decide +kernel

/-- R91: bits 31:4 of a CMD word are ignored, bits 31:8 of a MODE word are not stored (95 sets B and J). -/
theorem test_decode_ignores_upper_bits :
    decode .cmd 0xABCDEF01#32 = .start ∧ decode .cmd 0xFFFFFFF2#32 = .cmdRsvd2 ∧
    decode .mode 0xFFFFFF55#32 = .convI4W4O4Icn false := by decide +kernel

/-- A run of bytes that is not one word is refused by name; four bytes are little-endian (20_memory R62). -/
theorem test_decode_bytes :
    decodeBytes .mode [0x6A#8, 0#8, 0#8, 0#8] = .ok (.convI8W8O8Icn false) ∧
    decodeBytes .mode [0x6A#8, 0#8, 0#8] = .error .notOneWord := ⟨rfl, rfl⟩

/-! ## Vectors of 95_test_vectors -/

/-- Set A: bytes `0xB4 0x1B 0xE4` unpacked at 2, 4 and 8 bits, and `Unpack(p+1, 4, 2, 1)`, `Unpack(p, 2, 4, 8)`. -/
theorem test_packed_elements :
    let m : Memory := { cells := [(0, 0xB4#8), (1, 0x1B#8), (2, 0xE4#8)], unspec := [] }
    (List.range 12).map (packedElem m 0 .b2) = [2, 3, 1, 0, 0, 1, 2, 3, 3, 2, 1, 0] ∧
    (List.range 6).map (packedElem m 0 .b4) = [11, 4, 1, 11, 14, 4] ∧
    (List.range 3).map (packedElem m 0 .b8) = [180, 27, 228] ∧
    unpack m 1 4 .b2 1 = [-1, 0, 1, 2] ∧ unpack m 0 2 .b4 8 = [3, -4] := by decide +kernel

/-- Set A: packing. -/
theorem test_pack_byte :
    packByte .b2 [3, 0, 0, 0] = 0xC0 ∧ packByte .b2 [0, 0, 0, 3] = 0x03 ∧ packByte .b4 [15, 0] = 0xF0 ∧
    packByte .b2 [2, 3, 1, 0] = 0xB4 ∧ packByte .b2 [1, 1, 1, 1] = 0x55 := by decide +kernel

/-- Set C: the size check, at its granules. -/
theorem test_size_check :
    sizeOkCounts ⟨.b2, .b2, .b2, .thr, false⟩ 4 4 = true ∧ sizeOkCounts ⟨.b2, .b2, .b2, .thr, false⟩ 6 4 = false ∧
    sizeOkCounts ⟨.b2, .b2, .b2, .thr, false⟩ 4 6 = false ∧ sizeOkCounts ⟨.b8, .b8, .b8, .icn, false⟩ 3 2 = true ∧
    sizeOkCounts ⟨.b8, .b8, .b8, .icn, false⟩ 3 3 = false ∧ sizeOkCounts ⟨.b8, .b4, .b8, .icn, false⟩ 3 2 = false ∧
    sizeOkCounts ⟨.b8, .b2, .b2, .thr, false⟩ 2 4 = false ∧ sizeOkCounts ⟨.b2, .b2, .b2, .thr, false⟩ 0 0 = true := by
  decide +kernel

/-- A configuration with the bases of the programs of 95 part 3. -/
def cfg (mode : BitVec 8) (di ci co : BitVec 16) (k s : BitVec 8) (pad : BitVec 32) (zp : BitVec 24) : Regs :=
  { Regs.reset with
    mode := mode, dimIn := di, chIn := ci, chOut := co, ksize := k, stride := s, pad := pad, zp := zp
    inBase := 0x1000#32, wBase := 0x2000#32, biasBase := 0x3000#32, outBase := 0x6000#32, qaBase := 0x4000#32
    qbBase := 0x5000#32, zwBase := 0x5800#32, colbufBase := 0x7000#32, scrbBase := 0x8000#32 }

/-- Set D: `OUT_H`, `OUT_W` and N of rows 2, 4, 6 and 10. -/
theorem test_geometry :
    (cfg 0 2 1 2 3 1 0x01010101 0).n = 4 ∧ (cfg 0 4 1 2 2 2 0x01000001 0).outH = 2 ∧
    (cfg 0 5 1 2 3 2 0x01010101 0).n = 9 ∧ (cfg 0 7 1 2 3 1 0x00010200 0).outH = 7 ∧
    (cfg 0 7 1 2 3 1 0x00010200 0).outW = 6 := by decide +kernel

/-- Set F: the wrap of an accumulator (F5, F7) and `Wc` from a zero point above the weight (F3). -/
theorem test_accumulate :
    (mac 0x7FFFFFFF#32 1 1).toInt = -2147483648 ∧ (mac 0x80000000#32 (-255) 255).toInt = 2147418623 ∧
    (mac 0#32 (-255) 255).toInt = -65025 := by decide +kernel

/-- Set G: thresholds `[-10, 0, 10]` are exceeded strictly; unsorted `[15, 5, 5]` counts. -/
theorem test_threshold_fold :
    let t : Tag := ⟨.b2, .b2, .b2, .thr, false⟩
    let r := cfg 0 1 4 4 1 1 0 0
    let m : Memory := { cells := [(0x4000, 0xF6#8), (0x4001, 0xFF#8), (0x4002, 0xFF#8), (0x4003, 0xFF#8),
                                  (0x4008, 10#8), (0x400C, 15#8), (0x4010, 5#8), (0x4014, 5#8)], unspec := [] }
    [-2147483648, -11, -10, -9, 0, 1, 10, 11, 2147483647].map (foldThr t r m 0) = [0, 0, 0, 1, 1, 2, 2, 3, 3] ∧
    [0, 5, 6, 15, 16].map (foldThr t r m 1) = [0, 0, 2, 2, 3] := by decide +kernel

/-- Set H: floor and not truncation, right shift, pre-shift, both saturations, the wrap of the pre-shift, a negative
multiplier and the largest high word. -/
theorem test_scale_shift_fold :
    icnLevel .b8 1000 0x40000000 0 0 = 250 ∧ icnLevel .b8 (-5) 0x40000000 0 3 = 1 ∧
    icnLevel .b4 100 0x40000000 3 10 = 13 ∧ icnLevel .b8 100 0x40000000 (-2) 0 = 100 ∧
    icnLevel .b4 7 0x40000000 (-1) 0 = 3 ∧ icnLevel .b4 1000 0x40000000 0 0 = 15 ∧
    icnLevel .b2 (-1000) 0x40000000 0 5 = 0 ∧ icnLevel .b8 1073741824 0x40000000 (-2) 0 = 0 ∧
    icnHi (-12345) 0x5A000000 4 = -4341 ∧ icnLevel .b8 100 (-1073741824) 0 50 = 25 ∧
    icnHi (-2147483648) (-2147483648) 0 = 1073741824 ∧ icnLevel .b2 (-1) 1 31 1 = 0 := by decide +kernel

/-- Set I: levels 0, 1, 2, 3 at 2 bits emit `0x1B`; 9, 0 at 4 bits of position 5 go to byte 5 as `0x90`. -/
theorem test_packer :
    (((packOr .b2 0#8 0 0 |> (packOr .b2 · 1 1)) |> (packOr .b2 · 2 2)) |> (packOr .b2 · 3 3)) = 0x1B#8 ∧
    packOr .b4 (packOr .b4 0#8 0 9) 1 0 = 0x90#8 ∧
    packAddr ⟨.b8, .b8, .b4, .thr, false⟩ (cfg 0 1 1 2 1 1 0 0) 5 1 = 0x6005 := by decide +kernel

/-- Set K: what a register keeps of `0xFFFFFFFF`. -/
theorem test_register_fields :
    [0x08, 0x0C, 0x18, 0x1C, 0x20, 0x24, 0x28, 0x48, 0x04, 0x00, 0x4C].map
      (fun off => readReg (writeReg State.reset off 0xFFFFFFFF#32) off) =
    [0xFF#32, 0xFFFF#32, 0xFF#32, 0xFFFFFFFF#32, 0xFF#32, 0xFFFFFF#32, 0xFFFFFFFF#32, 0xFFFFFFFF#32, 0#32, 0#32, 0#32] :=
  by decide +kernel

/-! ## Small states -/

/-- A state with these registers, memory cells and host operations, everything else as reset leaves it. -/
def mkState (st : Status) (r : Regs) (cells : List Host.Cell) (pending : List HostOp) : State :=
  { State.reset with status := st, regs := r, mem := { cells := cells, unspec := [] }, pending := pending }

/-- What holds of the next state of an outcome. -/
def after (o : Out) (p : State → Bool) : Bool :=
  match o with
  | .next u => p u
  | .fault _ => false
  | .refused _ => false

/-- Program P1 of 95 part 3, with its memory in place. -/
def p1 : State :=
  mkState .idle (cfg 0x00 1 4 4 1 1 0 2)
    [(0x1000, 0xAA#8), (0x2000, 0x55#8), (0x2001, 0x55#8), (0x2002, 0x55#8), (0x2003, 0x55#8), (0x3004, 10#8),
     (0x3008, 20#8), (0x300C, 30#8), (0x4000, 5#8), (0x4004, 15#8), (0x4008, 25#8), (0x400C, 5#8), (0x4010, 15#8),
     (0x4014, 25#8), (0x4018, 5#8), (0x401C, 15#8), (0x4020, 25#8), (0x4024, 5#8), (0x4028, 15#8), (0x402C, 25#8)] []

/-- Program P6 of 95 part 3 (I8.W8.O8.ICN, DOT2 path, padding on two sides), with its memory in place. -/
def p6 : State :=
  mkState .idle (cfg 0x6A 4 1 2 2 2 0x01000001 0x80640A)
    [(0x1000, 0x0A#8), (0x1001, 0x0B#8), (0x1002, 0x0E#8), (0x1003, 0x13#8), (0x1004, 0x1A#8), (0x1005, 0x23#8),
     (0x1006, 0x2E#8), (0x1007, 0x3B#8), (0x1008, 0x4A#8), (0x1009, 0x5B#8), (0x100A, 0x6E#8), (0x100B, 0x83#8),
     (0x100C, 0x9A#8), (0x100D, 0xB3#8), (0x100E, 0xCE#8), (0x100F, 0xEB#8),
     (0x2000, 0x65#8), (0x2001, 0x63#8), (0x2002, 0x6E#8), (0x2003, 0x5A#8), (0x2004, 0x64#8), (0x2005, 0x64#8),
     (0x2006, 0xE4#8), (0x3000, 0xF9#8), (0x3001, 0xFF#8), (0x3002, 0xFF#8), (0x3003, 0xFF#8), (0x3004, 0xE8#8),
     (0x3005, 0x03#8), (0x4000, 0xFF#8), (0x4001, 0xFF#8), (0x4002, 0xFF#8), (0x4003, 0x7F#8), (0x4007, 0xE0#8),
     (0x5001, 0x03#8)] []

/-- The tag of P1. -/
def tagP1 : Tag := ⟨.b2, .b2, .b2, .thr, false⟩

/-- The tag of P6. -/
def tagP6 : Tag := ⟨.b8, .b8, .b8, .icn, false⟩

/-- The window of 95 set E2, positions 0 and 3. -/
theorem test_window :
    window tagP6 p6.regs p6.mem 0 = [0#16, 0#16, 0#16, 1#16] ∧
    window tagP6 p6.regs p6.mem 3 = [36#16, 49#16, 100#16, 121#16] := by decide +kernel

/-- P1 as one call: levels 0, 1, 2, 3, byte `0x1B` (95, S6). -/
theorem test_call_p1 :
    after (exec (.convI2W2O2Thr false) p1) (fun u => u.status == .done && u.mem.read 0x6000 == 0x1B#8) = true := by
  decide +kernel

/-- P6 as one call: bytes as the end state lists them (95, P6). -/
theorem test_call_p6 :
    after (exec (.convI8W8O8Icn false) p6) (fun u => u.status == .done &&
      (List.range 8).map (fun i => u.mem.read (0x6000 + i)) == [0x77#8, 0x71#8, 0x63#8, 0x76#8, 0x23#8, 0x6E#8, 0x0D#8, 0x65#8]) = true := by
  decide +kernel

/-- Every convolution runs to DONE on a legal configuration of its own (4 input and 4 output channels meet every granule
of 40_host_commands R125). -/
theorem test_every_convolution_completes :
    ((List.range 256).all fun w =>
      match (decode .mode (BitVec.ofNat 32 w)).tag? with
      | some _ => after (exec (decode .mode (BitVec.ofNat 32 w)) (mkState .idle (cfg (BitVec.ofNat 8 w) 1 4 4 1 1 0 0) [] []))
          (fun u => u.status == .done)
      | none => true) = true := by decide +kernel

/-- Every reserved row raises FAULT, ZWM and the channel counts regardless (41_conv_modes R196, R197). -/
theorem test_reserved_modes_fault :
    ((List.range 256).all fun w =>
      match (decode .mode (BitVec.ofNat 32 w)).tag? with
      | some _ => true
      | none => after (exec (decode .mode (BitVec.ofNat 32 w)) (mkState .done (cfg (BitVec.ofNat 8 w) 1 6 3 1 1 0 0) [] []))
          (fun u => u.status == .fault)) = true := by decide +kernel

/-- Set J: START with a reserved MODE and a bad channel count is FAULT; with the bad count alone SIZE_MISMATCH; legal,
BUSY; in FAULT nothing. -/
theorem test_start_outcomes :
    after (exec .start (mkState .idle (cfg 0x03 1 6 4 1 1 0 0) [] [])) (fun u => u.status == .fault) = true ∧
    after (exec .start (mkState .idle (cfg 0x00 1 6 4 1 1 0 0) [] [])) (fun u => u.status == .sizeMismatch) = true ∧
    after (exec .start (mkState .sizeMismatch (cfg 0x00 1 4 4 1 1 0 0) [] [])) (fun u => u.status == .busy) = true ∧
    after (exec .start (mkState .fault (cfg 0x00 1 4 4 1 1 0 0) [] [])) (fun u => u.status == .fault) = true := by
  decide +kernel

/-- The fifteen reserved commands leave a BUSY block as it is (40_host_commands R121). -/
theorem test_reserved_commands :
    ([0, 2, 3, 4, 5, 6, 7, 8, 9, 10, 11, 12, 13, 14, 15].all fun w =>
      after (exec (decode .cmd (BitVec.ofNat 32 w)) { p1 with status := .busy }) (fun u => u.status == .busy)) = true := by
  decide +kernel

/-- A memory write of what an unlisted byte reads as removes the entry. -/
theorem test_write_removes_entry :
    (({ cells := [(5, 1#8)], unspec := [] } : Memory).write 5 0#8).cells = [] := by decide

/-- `MEM32` lays a word's least significant byte lowest (20_memory R61), as `MemWrite` does, and a store that crosses the
top of the address space wraps. -/
theorem test_little_endian_stores :
    storeWords 0x4000#32 [0x12345678#32] =
      [.memWr 0x4000#32 0x78#8, .memWr 0x4001#32 0x56#8, .memWr 0x4002#32 0x34#8, .memWr 0x4003#32 0x12#8] ∧
    (memWrite { cells := [], unspec := [] } 0xFFFFFFFE 4 0x12345678).cells =
      [(0, 0x34#8), (1, 0x12#8), (0xFFFFFFFE, 0x78#8), (0xFFFFFFFF, 0x56#8)] ∧
    memReadS16 { cells := [(0, 0xFE#8), (1, 0xFF#8)], unspec := [] } 0 = -2 := by decide +kernel

/-- 70_reset R341: after DONE the OUT byte is hidden from the host until it has read a STATUS other than BUSY. -/
theorem test_out_is_hidden_until_status_is_read :
    after (exec (.convI2W2O2Thr false) p1) (fun u =>
      hiddenFromHost u 0x6000 && !hiddenFromHost u 0x6001 &&
      after (step { u with pending := [.rd 0x08 4] }) (fun x => hiddenFromHost x 0x6000) &&
      after (step { u with pending := [.rd 0x04 4] }) (fun x => !hiddenFromHost x 0x6000 && x.rdata == 2#32) &&
      after (step { u with pending := [.poll] }) (fun x =>
        !hiddenFromHost x 0x6000 && x.rdata == 2#32 && x.pending == [])) = true := by decide +kernel

/-! ## Witnesses: a concrete state and operands that meet every hypothesis of a statement -/

/-- P1 and P6 are launchable. -/
theorem launchable_p1 : Launchable tagP1 p1 := by
  refine ⟨?_, ?_, ?_, ?_⟩ <;> decide +kernel

theorem launchable_p6 : Launchable tagP6 p6 := by
  refine ⟨?_, ?_, ?_, ?_⟩ <;> decide +kernel

/-- P1 just accepted, but for its scratch buffer. -/
def busyP1 (pending : List HostOp) : State := { p1 with status := .busy, pending := pending }

/-- With nothing pending the block takes its turn. -/
theorem turn_of_nil {s : State} (h : s.pending = []) : TurnLeaves s [] := .inl ⟨h, rfl⟩

/-- The three forms of the block's turn: nothing pending, the host's leave with a read still to come, a POLL. -/
theorem witness_TurnLeaves :
    TurnLeaves (busyP1 []) [] ∧ TurnLeaves (busyP1 [.blockTurn, .rd 0x14 4]) [.rd 0x14 4] ∧
    TurnLeaves (busyP1 [.poll]) [.poll] :=
  ⟨.inl ⟨rfl, rfl⟩, .inr (.inl rfl), .inr (.inr ⟨rfl, rfl, [], rfl⟩)⟩

/-- DecodeOfEncodeIsTheInstruction: well-formed terms at the edges of their operands. -/
theorem witness_DecodeOfEncodeIsTheInstruction :
    (Instr.convI8W8O8Icn true).wf = true ∧ (Instr.rsvdWidthOb3 true true 2#2 2#2).wf = true ∧
    (Instr.rsvdWidthIb3 true true 3#2 3#2).wf = true := by decide

/-- StepRunsTheDecodedInstruction: one state per clause. -/
theorem witness_StepRunsTheDecodedInstruction :
    { p1 with pending := [.wr 0 4 1#32] }.pending = [HostOp.wr 0 4 1#32] ∧
    { p1 with pending := [.call 0#32] }.pending = [HostOp.call 0#32] ∧
    TurnLeaves (busyP1 [.blockTurn, .rd 0x14 4]) [.rd 0x14 4] :=
  ⟨rfl, rfl, witness_TurnLeaves.2.1⟩

/-- RegisterWriteReadsBack: the first and the last RW register. -/
theorem witness_RegisterWriteReadsBack :
    ({ p1 with pending := [.wr 0x08 4 0x6A#32] } : State).status ≠ .busy ∧ 0x08 ≤ 0x08 ∧ 0x08 ≤ 0x48 ∧ 0x08 % 4 = 0 ∧
    0x08 ≤ 0x48 ∧ 0x48 ≤ 0x48 ∧ 0x48 % 4 = 0 ∧
    ({ p1 with pending := [.wr 0x48 4 7#32] } : State).pending = .wr 0x48 4 7#32 :: [] := by decide

/-- UnstoredOffsetsIgnoreWrites: STATUS, the first and the last reserved offset. -/
theorem witness_UnstoredOffsetsIgnoreWrites :
    ([0x04, 0x4C, 0xFC].all fun off => off == 0x04 || (0x4C ≤ off && off < 0x100 && off % 4 == 0)) = true ∧
    ({ p1 with pending := [.wr 0x4C 4 7#32] } : State).pending = .wr 0x4C 4 7#32 :: [] := by decide

/-- BusyIgnoresEveryRegisterWrite: a CMD write while BUSY. -/
theorem witness_BusyIgnoresEveryRegisterWrite :
    ({ p1 with status := .busy, pending := [.wr 0 4 1#32] } : State).status = .busy ∧ 0 < 0x100 ∧ 0 % 4 = 0 ∧
    ({ p1 with status := .busy, pending := [.wr 0 4 1#32] } : State).pending = .wr 0 4 1#32 :: [] := by decide

/-- RegisterReadHasNoSideEffect: the last offset of the block, and a POLL in IDLE and in BUSY. -/
theorem witness_RegisterReadHasNoSideEffect :
    0xFC < 0x100 ∧ 0xFC % 4 = 0 ∧ ({ p1 with pending := [.rd 0xFC 4] } : State).pending = .rd 0xFC 4 :: [] ∧
    ({ p1 with pending := [.poll] } : State).status ≠ .busy ∧
    ({ p1 with pending := [.poll] } : State).pending = .poll :: [] ∧
    (busyP1 [.poll]).status = .busy ∧ (busyP1 [.poll]).pending = .poll :: [] := by decide

/-- BadRegisterAccessIsRefused: a byte write, a misaligned read, a read past the block. -/
theorem witness_BadRegisterAccessIsRefused :
    ¬ (1 = 4 ∧ 0x08 % 4 = 0 ∧ 0x08 < 0x100) ∧ ¬ (4 = 4 ∧ 0x0A % 4 = 0 ∧ 0x0A < 0x100) ∧
    ¬ (4 = 4 ∧ 0x100 % 4 = 0 ∧ 0x100 < 0x100) ∧
    ({ p1 with pending := [.wr 0x08 1 0#32] } : State).pending = .wr 0x08 1 0#32 :: [] ∧
    ({ p1 with pending := [.rd 0x0A 4] } : State).pending = .rd 0x0A 4 :: [] := by decide

/-- HostMemoryWriteIsReadBack: the top byte of the address space, BUSY and outside the call's regions. -/
theorem witness_HostMemoryWriteIsReadBack :
    p1.mem.wf = true ∧ addrBacked p1.holes (0xFFFFFFFF#32).toNat = true ∧
    inCallRegion { p1 with status := .busy, pending := [] } (0xFFFFFFFF#32).toNat = false ∧
    ({ p1 with status := .busy, pending := [.memWr 0xFFFFFFFF#32 9#8] } : State).pending =
      .memWr 0xFFFFFFFF#32 9#8 :: [] := by decide +kernel

/-- HostAccessesToDataMemory: a byte without storage; a byte of an OUT region not yet seen complete, in DONE; the last
byte of COLBUF and the byte after it while BUSY; the writes inside and outside the regions while BUSY. -/
theorem witness_HostAccessesToDataMemory :
    addrBacked [{ base := 0x6000, size := 1 }] (0x6000#32).toNat = false ∧
    ({ p1 with pending := [.memRd 0x6000#32] } : State).pending = .memRd 0x6000#32 :: [] ∧
    ({ p1 with pending := [.memWr 0x1000#32 1#8] } : State).pending = .memWr 0x1000#32 1#8 :: [] ∧
    addrBacked p1.holes (0x6000#32).toNat = true ∧
    ({ p1 with status := .done, unseen := [outSpan tagP1 p1.regs] } : State).unseen.any
      (fun q => q.has (0x6000#32).toNat) = true ∧
    p1.unseen.any (fun q => q.has (0x6000#32).toNat) = false ∧ p1.status ≠ .busy ∧
    (busyP1 []).status = .busy ∧ modeDecode p1.regs.modeW = .legal tagP1 ∧
    (outSpan tagP1 p1.regs).has 0x6000 = true ∧ (outSpan tagP1 p1.regs).has 0x1000 = false ∧
    (colbufSpan p1.regs).has 0x1000 = false ∧
    (colbufSpan p1.regs).has 0x700F = true ∧ (colbufSpan p1.regs).has 0x7010 = false ∧
    (callSpans tagP1 p1.regs).any (fun q => q.has 0x1000) = true ∧
    (callSpans tagP1 p1.regs).any (fun q => q.has 0x9000) = false := by decide +kernel

/-- MemReadAndMemWriteAreLittleEndian: a 4-byte write to canonical memory. -/
theorem witness_MemReadAndMemWriteAreLittleEndian : p1.mem.wf = true ∧ 4 ≤ 4294967296 ∧ 3 < 4 := by decide +kernel

/-- PackAndUnpackAreInverse: an element vector at its largest values. -/
theorem witness_PackAndUnpackAreInverse :
    ([3, 3, 3, 3] : List Nat).length = Width.b2.epb ∧ ∀ x ∈ ([3, 3, 3, 3] : List Nat), x < 2 ^ Width.b2.bits := by decide

/-- ReservedCommandsDoNothing: `CMD.RSVD15` is in the list. -/
theorem witness_ReservedCommandsDoNothing :
    Instr.cmdRsvd15 ∈ [Instr.cmdNop0, .cmdRsvd2, .cmdRsvd3, .cmdRsvd4, .cmdRsvd5, .cmdRsvd6, .cmdRsvd7, .cmdRsvd8,
      .cmdRsvd9, .cmdRsvd10, .cmdRsvd11, .cmdRsvd12, .cmdRsvd13, .cmdRsvd14, .cmdRsvd15] := by decide +kernel

/-- ReservedModesRaiseFault: P1 is IDLE, `RSVD.WIDTH.OB3` is in the list. -/
theorem witness_ReservedModesRaiseFault :
    (p1.status = .idle ∨ p1.status = .done ∨ p1.status = .sizeMismatch) ∧
    Instr.rsvdWidthOb3 true false 2#2 1#2 ∈
      [Instr.rsvdThrO8x20 true, .rsvdThrO8x21 true, .rsvdThrO8x22 true, .rsvdThrO8x24 true, .rsvdThrO8x25 true,
       .rsvdThrO8x26 true, .rsvdThrO8x28 true, .rsvdThrO8x29 true, .rsvdThrO8x2A true,
       .rsvdWidthIb3 true false 2#2 1#2, .rsvdWidthWb3 true false 2#2 1#2, .rsvdWidthOb3 true false 2#2 1#2] := by
  decide +kernel

/-- RejectedStartChangesOnlyState: a reserved MODE, and failing counts (CI = 6 at 2 bits). -/
theorem witness_RejectedStartChangesOnlyState :
    modeDecode (cfg 0x2A 1 4 4 1 1 0 0).modeW = .reserved .thrOut8 ∧
    modeDecode (cfg 0x00 1 6 4 1 1 0 0).modeW = .legal tagP1 ∧ (cfg 0x00 1 6 4 1 1 0 0).ci % (8 / tagP1.ib.bits) ≠ 0 ∧
    (mkState .done (cfg 0x00 1 6 4 1 1 0 0) [] []).status = .done := by decide +kernel

/-- ConvolutionsReportSizeMismatch: the same counts. -/
theorem witness_ConvolutionsReportSizeMismatch :
    (Instr.convI2W2O2Thr false).tag? = some tagP1 ∧ (mkState .done (cfg 0x00 1 6 4 1 1 0 0) [] []).status = .done ∧
    (cfg 0x00 1 6 4 1 1 0 0).ci % (8 / tagP1.ib.bits) ≠ 0 := by decide +kernel

/-- StartIsAccepted, AcceptedStartTakesExactlyItsSteps: P1. -/
theorem witness_StartIsAccepted :
    p1.mem.wf = true ∧ (p1.status = .idle ∨ p1.status = .done ∨ p1.status = .sizeMismatch) ∧ p1.pending = [] ∧
    Launchable tagP1 p1 :=
  ⟨by decide +kernel, by decide, by decide, launchable_p1⟩

/-- AcceptedStartTakesExactlyItsSteps: P1 again. -/
theorem witness_AcceptedStartTakesExactlyItsSteps :
    p1.mem.wf = true ∧ p1.pending = [] ∧ p1.status = .idle ∧ Launchable tagP1 p1 :=
  ⟨by decide +kernel, rfl, rfl, launchable_p1⟩

/-- OutsideThePremisesIsRefused, first clause: K = 0 fails H1, in a state whose counts pass. -/
theorem witness_OutsideThePremisesIsRefused :
    sizeOk tagP1 (cfg 0x00 1 4 4 0 1 0 0) = true ∧ ¬ (1 ≤ (cfg 0x00 1 4 4 0 1 0 0).k) ∧
    modeDecode (cfg 0x00 1 4 4 0 1 0 0).modeW = .legal tagP1 ∧ (Instr.convI2W2O2Thr false).tag? = some tagP1 := by
  decide +kernel

/-- OutsideThePremisesIsRefused, the other clauses: P1 is inside the premises H1 to H4 and H6. -/
theorem witness_OutsideThePremisesIsRefused_inside :
    let r := p1.regs
    let reads : List Span := [⟨0x1000, 1⟩, ⟨0x2000, 4⟩, ⟨0x3000, 16⟩, ⟨0x4000, 48⟩, ⟨0x5000, 0⟩, ⟨0x5800, 0⟩]
    let out : Span := ⟨0x6000, 1⟩
    let colbuf : Span := ⟨0x7000, 16⟩
    sizeOk tagP1 r = true ∧ readSpans tagP1 r = reads ∧ outSpan tagP1 r = out ∧ colbufSpan r = colbuf ∧
    (1 ≤ r.di ∧ 1 ≤ r.ci ∧ 1 ≤ r.co ∧ 1 ≤ r.k ∧ 1 ≤ r.s) ∧
    (r.k ≤ r.di + r.pt + r.pb ∧ r.k ≤ r.di + r.pl + r.pr) ∧
    (∀ q ∈ out :: colbuf :: reads, q.base + q.size ≤ 4294967296) ∧
    (∀ a, ¬ (out.has a = true ∧ colbuf.has a = true) ∧
      ∀ q ∈ reads, ¬ (q.has a = true ∧ (out.has a = true ∨ colbuf.has a = true))) ∧
    (tagP1.fold = .icn → ∀ c, c < r.co → -31 ≤ shf r p1.mem c ∧ shf r p1.mem c ≤ 31) := by
  have h : ∀ q ∈ ([⟨0x1000, 1⟩, ⟨0x2000, 4⟩, ⟨0x3000, 16⟩, ⟨0x4000, 48⟩, ⟨0x5000, 0⟩, ⟨0x5800, 0⟩] : List Span),
      q.disjoint ⟨0x6000, 1⟩ = true ∧ q.disjoint ⟨0x7000, 16⟩ = true := by decide +kernel
  have ho : Span.disjoint ⟨0x6000, 1⟩ ⟨0x7000, 16⟩ = true := by decide +kernel
  refine ⟨by decide +kernel, by decide +kernel, by decide +kernel, by decide +kernel, by decide +kernel,
    by decide +kernel, by decide +kernel, fun a => ⟨fun hb => ?_, fun q hq hb => ?_⟩, fun hf => by cases hf⟩
  · have := disjoint_has ho hb.1
    simp [hb.2] at this
  · rcases hb with ⟨ha, hb | hb⟩
    · have := disjoint_has (h q hq).1 ha
      simp [hb] at this
    · have := disjoint_has (h q hq).2 ha
      simp [hb] at this

/-- OutsideThePremisesIsRefused: `backed` fails with a hole over OUT and holds with none. -/
theorem witness_OutsideThePremisesIsRefused_backed :
    (¬ ∀ a, (outSpan tagP1 p1.regs).has a = true → ∀ h ∈ ([⟨0x6000, 1⟩] : List Span), h.has a = false) ∧
    (∀ q ∈ outSpan tagP1 p1.regs :: colbufSpan p1.regs :: readSpans tagP1 p1.regs, ∀ a, q.has a = true →
      ∀ h ∈ p1.holes, h.has a = false) := by
  have h1 : (outSpan tagP1 p1.regs).has 0x6000 = true := by decide +kernel
  refine ⟨fun h => ?_, fun q _ a _ h hh => by cases hh⟩
  have := h 0x6000 h1 ⟨0x6000, 1⟩ (by simp)
  exact absurd this (by decide)

/-- NothingRunsInBusyOrFault: a state of each. -/
theorem witness_NothingRunsInBusyOrFault :
    ({ p1 with status := .busy } : State).status = .busy ∧ ({ p1 with status := .fault } : State).status = .fault := by
  decide

/-- CallComputesConv: P6, four positions and two channels. -/
theorem witness_CallComputesConv :
    (Instr.convI8W8O8Icn false).tag? = some tagP6 ∧ p6.mem.wf = true ∧ p6.status = .idle ∧
    sizeOk tagP6 p6.regs = true ∧ inContract tagP6 p6.regs p6.mem = true ∧ premiseH5 tagP6 p6.regs p6.holes = true ∧
    3 < p6.regs.n ∧ 1 < p6.regs.co ∧ (colbufSpan p6.regs).has 0x700F = true ∧
    (outSpan tagP6 p6.regs).has 0x6008 = false := by decide +kernel

/-- MicroStepsMakeTheWholeCall: START answers a next state on P6. -/
theorem witness_MicroStepsMakeTheWholeCall :
    (Instr.convI8W8O8Icn false).tag? = some tagP6 ∧ modeDecode p6.regs.modeW = .legal tagP6 ∧ p6.pending = [] ∧
    p6.status = .idle ∧ after (exec .start p6) (fun u => u == accept tagP6 p6) = true := by decide +kernel

/-- A BUSY state of P6 at a point of its sequence. -/
def busyP6 (q : SeqState) (col : List Elem) : State := { p6 with status := .busy, seq := q, col0 := col, col1 := col }

/-- A BUSY state of P1 before its DOT1 of channel `chi`. -/
def dot1P1 (chi : Nat) : State :=
  { p1 with status := .busy, seq := { phase := .dot1, pos := 1, fill := 1, chi := chi }, col0 := [0#16, 0#16, 0#16, 0#16] }

/-- A column of P6. -/
def colP6 : List Elem := [1#16, 2#16, 3#16, 4#16]

/-- GatherWritesTheWindow: both values of FILL, the last position, and FILL = 0 with more positions to come. -/
theorem witness_GatherWritesTheWindow :
    ∀ s ∈ [busyP6 ⟨.gather, 0, 0, 0⟩ [], busyP6 ⟨.gather, 3, 1, 0⟩ colP6],
      TurnLeaves s [] ∧ s.status = .busy ∧ modeDecode s.regs.modeW = .legal tagP6 ∧ s.seq.phase = .gather ∧
      s.seq.fill < 2 ∧ 1 < s.regs.k ∧ 0 < s.regs.ci ∧ (s.seq.fill = 0 → s.seq.pos + 1 ≠ s.regs.n) := by
  have h : ∀ s ∈ [busyP6 ⟨.gather, 0, 0, 0⟩ [], busyP6 ⟨.gather, 3, 1, 0⟩ colP6],
      s.pending = [] ∧ s.status = .busy ∧ modeDecode s.regs.modeW = .legal tagP6 ∧ s.seq.phase = .gather ∧
      s.seq.fill < 2 ∧ 1 < s.regs.k ∧ 0 < s.regs.ci ∧ (s.seq.fill = 0 → s.seq.pos + 1 ≠ s.regs.n) := by
    decide +kernel
  exact fun s hs => ⟨turn_of_nil (h s hs).1, (h s hs).2⟩

/-- The third clause of GatherWritesTheWindow: a single position leads to DOT1. -/
theorem witness_GatherWritesTheWindow_last :
    let s : State := { p1 with status := .busy }
    s.pending = [] ∧ modeDecode s.regs.modeW = .legal tagP1 ∧ s.seq.phase = .gather ∧ s.seq.fill = 0 ∧
    s.seq.pos + 1 = s.regs.n := by decide +kernel

/-- A configuration of 4 channels at 2 bits (ICN, DI = 2, K = 1): a byte takes two DOT2s. -/
def dot2Cfg (chi : Nat) : State :=
  { mkState .busy (cfg 0x40 2 4 4 1 1 0 0) [] [] with
    seq := { phase := .dot2, pos := 2, fill := 2, chi := chi }, col0 := [1#16, 2#16, 3#16, 4#16]
    col1 := [1#16, 2#16, 3#16, 4#16] }

/-- Dot2FormsFourAccumulators: P6 after two GATHERs, whose only channel pair is the last and whose channels both fill a
byte. -/
theorem witness_Dot2FormsFourAccumulators :
    let s := busyP6 ⟨.dot2, 2, 2, 0⟩ colP6
    TurnLeaves s [] ∧ CallOk tagP6 s ∧ s.mem.wf = true ∧ s.status = .busy ∧ s.seq.phase = .dot2 ∧
    s.seq.chi + 2 = s.regs.co ∧ s.seq.chi % tagP6.ob.epb = tagP6.ob.epb - 1 ∧
    (s.seq.chi + 1) % tagP6.ob.epb = tagP6.ob.epb - 1 := by
  refine ⟨.inl ⟨rfl, rfl⟩, ⟨⟨?_, ?_, ?_, ?_⟩, ?_⟩, ?_⟩
  · decide +kernel
  · decide +kernel
  · decide +kernel
  · decide +kernel
  · show Dot2Ready _ _
    unfold Dot2Ready PacksClear
    decide +kernel
  · decide +kernel

/-- Dot2FormsFourAccumulators: at 2 bits the first of two DOT2s fills no byte and is not the last, the second fills one
with its second channel. -/
theorem witness_Dot2FormsFourAccumulators_two_bits :
    ∀ chi ∈ [0, 2],
      let t : Tag := ⟨.b2, .b2, .b2, .icn, false⟩
      let s := dot2Cfg chi
      TurnLeaves s [] ∧ CallOk t s ∧ s.mem.wf = true ∧ s.status = .busy ∧ s.seq.phase = .dot2 ∧
      s.seq.chi % t.ob.epb ≠ t.ob.epb - 1 ∧ ((s.seq.chi + 1) % t.ob.epb = t.ob.epb - 1 ↔ chi = 2) ∧
      (s.seq.chi + 2 ≠ s.regs.co ↔ chi = 0) := by
  intro chi hc
  have h : ∀ chi ∈ [0, 2],
      let t : Tag := ⟨.b2, .b2, .b2, .icn, false⟩
      let s := dot2Cfg chi
      (modeDecode s.regs.modeW = .legal t ∧ sizeOk t s.regs = true ∧ inContract t s.regs s.mem = true ∧
        premiseH5 t s.regs s.holes = true) ∧ s.mem.wf = true ∧ s.status = .busy ∧ s.seq.phase = .dot2 ∧
      s.seq.chi % t.ob.epb ≠ t.ob.epb - 1 ∧ ((s.seq.chi + 1) % t.ob.epb = t.ob.epb - 1 ↔ chi = 2) ∧
      (s.seq.chi + 2 ≠ s.regs.co ↔ chi = 0) := by decide +kernel
  have hr : ∀ chi ∈ [0, 2], Dot2Ready ⟨.b2, .b2, .b2, .icn, false⟩ (dot2Cfg chi) := by
    unfold Dot2Ready PacksClear
    decide +kernel
  exact ⟨.inl ⟨rfl, rfl⟩, ⟨(h chi hc).1, hr chi hc⟩, (h chi hc).2⟩

/-- Dot1FormsOneAccumulator: P1 before channel 0 (no byte emitted) and before channel 3 (the byte is emitted). -/
theorem witness_Dot1FormsOneAccumulator :
    ∀ s ∈ [dot1P1 0, dot1P1 3], TurnLeaves s [] ∧ s.mem.wf = true ∧ s.status = .busy ∧
      modeDecode s.regs.modeW = .legal tagP1 ∧ s.seq.phase = .dot1 ∧
      ((s.seq.chi % tagP1.ob.epb = tagP1.ob.epb - 1) ↔ s.seq.chi = 3) ∧
      (s.seq.chi + 1 = s.regs.co ↔ s.seq.chi = 3) := by
  have h : ∀ s ∈ [dot1P1 0, dot1P1 3], s.pending = [] ∧ s.mem.wf = true ∧ s.status = .busy ∧
      modeDecode s.regs.modeW = .legal tagP1 ∧ s.seq.phase = .dot1 ∧
      ((s.seq.chi % tagP1.ob.epb = tagP1.ob.epb - 1) ↔ s.seq.chi = 3) ∧
      (s.seq.chi + 1 = s.regs.co ↔ s.seq.chi = 3) := by decide +kernel
  exact fun s hs => ⟨turn_of_nil (h s hs).1, (h s hs).2⟩

/-- FinishWritesDone: P6 after its last DOT2, and DONE. -/
theorem witness_FinishWritesDone :
    let s := busyP6 ⟨.finish, 4, 0, 2⟩ colP6
    TurnLeaves s [] ∧ s.status = .busy ∧ modeDecode s.regs.modeW = .legal tagP6 ∧ s.seq.phase = .finish ∧
    TurnLeaves { s with status := .done } [] ∧ State.status { s with status := .done } = .done :=
  ⟨.inl ⟨rfl, rfl⟩, rfl, by decide +kernel, rfl, .inl ⟨rfl, rfl⟩, rfl⟩

/-- ZeroColumnLeavesTheBias: a column of zeros of P1. -/
theorem witness_ZeroColumnLeavesTheBias :
    ∀ j, j < p1.regs.len → colElem [0#16, 0#16, 0#16, 0#16] j = 0 := by decide +kernel

/-- WeightsAtZeroPointLeaveTheBias: the weights of P1 are all 1; with ZP.Z_W = 1 they are at their zero point. -/
theorem witness_WeightsAtZeroPointLeaveTheBias :
    ∀ j, j < (cfg 0x00 1 4 4 1 1 0 0x102).len →
      weight tagP1 (cfg 0x00 1 4 4 1 1 0 0x102) p1.mem 0 j = zw tagP1 (cfg 0x00 1 4 4 1 1 0 0x102) p1.mem 0 := by
  decide +kernel

/-- FastPathEqualsTheWindow: position 2 of P6 is middle × mid (95 set E2). -/
theorem witness_FastPathEqualsTheWindow :
    p6.regs.ci % tagP6.ib.epb = 0 ∧ bandOf p6.regs (originRow p6.regs 2) = .inside ∧
    bandOf p6.regs (originCol p6.regs 2) = .inside ∧ 1 < p6.regs.k := by decide +kernel

/-- InputAtZeroPointLeavesTheBias: P1's input is 2 everywhere and Z_IN is 2. -/
theorem witness_InputAtZeroPointLeavesTheBias :
    ∀ y x c, y < p1.regs.di → x < p1.regs.di → c < p1.regs.ci → inElem tagP1 p1.regs p1.mem y x c = p1.regs.zIn := by
  have h : ∀ y, y < p1.regs.di → ∀ x, x < p1.regs.di → ∀ c, c < p1.regs.ci →
      inElem tagP1 p1.regs p1.mem y x c = p1.regs.zIn := by decide +kernel
  exact fun y x c hy hx hc => h y hy x hx c hc

/-- PaddedWindowLeavesTheBias: the instance of 95 S3 (DI = 1, K = 3, S = 3, PT = PL = 3). -/
theorem witness_PaddedWindowLeavesTheBias :
    ∀ ky kx : Nat, ky < 3 → kx < 3 →
      inBounds (cfg 0x00 1 4 4 3 3 0x00030003 0) (originRow (cfg 0x00 1 4 4 3 3 0x00030003 0) 0 + (ky : Int))
        (originCol (cfg 0x00 1 4 4 3 3 0x00030003 0) 0 + (kx : Int)) = false := by
  have h : ∀ ky : Nat, ky < 3 → ∀ kx : Nat, kx < 3 →
      inBounds (cfg 0x00 1 4 4 3 3 0x00030003 0) (originRow (cfg 0x00 1 4 4 3 3 0x00030003 0) 0 + (ky : Int))
        (originCol (cfg 0x00 1 4 4 3 3 0x00030003 0) 0 + (kx : Int)) = false := by decide +kernel
  exact fun ky kx hy hx => h ky hy kx hx

/-- InBoundsCountIsTheClampedWidth: the first kernel position of P6's first window is padding (95 set E2). -/
theorem witness_InBoundsCountIsTheClampedWidth :
    inBounds p6.regs (originRow p6.regs 0 + ((0 : Nat) : Int)) (originCol p6.regs 0 + ((0 : Nat) : Int)) = false := by
  decide +kernel

/-- WindowValuesFitTheirElements: the last element of P6's columns. -/
theorem witness_WindowValuesFitTheirElements : 3 < p6.regs.len := by decide +kernel

/-- ThresholdLevelIsMonotone: the least and the greatest accumulator. -/
theorem witness_ThresholdLevelIsMonotone :
    tagP1.fold = .thr ∧ (0x80000000#32).toInt ≤ (0x7FFFFFFF#32).toInt := by decide

/-- SortedThresholdLevelIsTheFirstNotExceeded: P1's table is sorted; lv at both ends. -/
theorem witness_SortedThresholdLevelIsTheFirstNotExceeded :
    tagP1.fold = .thr ∧
    (∀ i j, i ≤ j → j < 2 ^ tagP1.ob.bits - 1 → thr tagP1 p1.regs p1.mem 0 i ≤ thr tagP1 p1.regs p1.mem 0 j) ∧
    0 ≤ 2 ^ tagP1.ob.bits - 1 ∧ 3 ≤ 2 ^ tagP1.ob.bits - 1 ∧ tagP1.ob.bits = 2 := by
  have h : ∀ j, j < 2 ^ tagP1.ob.bits - 1 → ∀ i, i ≤ j →
      thr tagP1 p1.regs p1.mem 0 i ≤ thr tagP1 p1.regs p1.mem 0 j := by decide +kernel
  exact ⟨rfl, fun i j hi hj => h j hj i hi, by decide, by decide, by decide⟩

/-- IcnLevelIsOneFlooredDivision: P6 folds by scale and shift. -/
theorem witness_IcnLevelIsOneFlooredDivision : tagP6.fold = .icn := rfl

/-- IcnLevelIsMonotone: channel 0 of P6 has multiplier `2^31 - 1` and shift 0; channel 1 a
negative multiplier and a right shift. -/
theorem witness_IcnLevelIsMonotone :
    tagP6.fold = .icn ∧ 0 ≤ mul p6.regs p6.mem 0 ∧
    -2147483648 ≤ shl (0x80000000#32).toInt (shiftSplit (shf p6.regs p6.mem 0)).1 ∧
    shl (0x7FFFFFFF#32).toInt (shiftSplit (shf p6.regs p6.mem 0)).1 ≤ 2147483647 ∧
    (0x80000000#32).toInt ≤ (0x7FFFFFFF#32).toInt ∧ mul p6.regs p6.mem 1 = -536870912 ∧ shf p6.regs p6.mem 1 = 3 := by
  decide +kernel

/-- IcnAnchorIsShiftByTwo: multiplier `2^30` and shift 0 in memory. -/
theorem witness_IcnAnchorIsShiftByTwo :
    let m : Memory := { cells := [(0x4003, 0x40#8)], unspec := [] }
    tagP6.fold = .icn ∧ shf p6.regs m 0 = 0 ∧ mul p6.regs m 0 = 1073741824 := by decide +kernel

/-- A BUSY state of P1 inside its call. -/
theorem callOk_p1 : CallOk tagP1 (busyP1 []) := by
  refine ⟨⟨?_, ?_, ?_, ?_⟩, ?_⟩
  · decide +kernel
  · decide +kernel
  · decide +kernel
  · decide +kernel
  · show GatherReady _
    unfold GatherReady PacksClear
    decide +kernel

/-- InvariantGivesTheSequencerRanges: a BUSY state with the invariant. -/
theorem witness_InvariantGivesTheSequencerRanges : Inv (busyP1 []) ∧ (busyP1 []).status = .busy :=
  ⟨⟨by decide +kernel, fun _ => ⟨tagP1, callOk_p1⟩⟩, rfl⟩

/-- EveryStepKeepsTheInvariant: a BUSY state with the invariant whose step answers a
next state. -/
theorem witness_EveryStepKeepsTheInvariant :
    Inv (busyP1 []) ∧ (busyP1 []).status = .busy ∧
    after (step (busyP1 [])) (fun u => u == gather tagP1 (busyP1 [])) = true :=
  ⟨⟨by decide +kernel, fun _ => ⟨tagP1, callOk_p1⟩⟩, rfl, by decide +kernel⟩

/-- A BUSY state of P1 inside its call, before its last DOT1, with the levels 0, 1, 2 in PK[0]. -/
def lastDot1P1 : State :=
  { p1 with
    status := .busy, seq := { phase := .dot1, pos := 1, fill := 1, chi := 3 }, col0 := [0#16, 0#16, 0#16, 0#16]
    pk0 := 0x18#8 }

/-- BlockWritesOnlyRegionOut: a step that writes the byte 0x1B at 0x6000, an address outside OUT and one in COLBUF. -/
theorem witness_BlockWritesOnlyRegionOut :
    lastDot1P1.mem.wf = true ∧ lastDot1P1.status = .busy ∧ CallOk tagP1 lastDot1P1 ∧ TurnLeaves lastDot1P1 [] ∧
    after (step lastDot1P1) (fun u => u.mem.read 0x6000 == 0x1B#8) = true ∧ Untouched tagP1 lastDot1P1.regs 0x6001 ∧
    (colbufSpan lastDot1P1.regs).has 0x7000 = true := by
  refine ⟨by decide +kernel, rfl, ⟨⟨?_, ?_, ?_, ?_⟩, ?_⟩, .inl ⟨rfl, rfl⟩, by decide +kernel, ⟨?_, ?_⟩, by decide +kernel⟩
  · decide +kernel
  · decide +kernel
  · decide +kernel
  · decide +kernel
  · show Dot1Ready _ _
    unfold Dot1Ready
    decide +kernel
  · decide +kernel
  · decide +kernel

/-- ConfigurationIsConstantWhileBusy: a dropped write while BUSY. -/
theorem witness_ConfigurationIsConstantWhileBusy :
    (busyP1 [.wr 0x14 4 2#32]).status = .busy ∧ (∀ rest, (busyP1 [.wr 0x14 4 2#32]).pending ≠ .reset :: rest) ∧
    after (step (busyP1 [.wr 0x14 4 2#32])) (fun u => u == busyP1 []) = true :=
  ⟨rfl, fun _ h => by simp [busyP1] at h, by decide +kernel⟩

/-- FaultIsStickyUntilReset: a state per clause; the last but one clause by reset. -/
theorem witness_FaultIsStickyUntilReset :
    let s (l : List HostOp) : State := { p1 with status := .fault, pending := l }
    TurnLeaves (s [.blockTurn]) [] ∧ (s []).status = .fault ∧ (s [.wr 0 4 1#32]).pending = .wr 0 4 1#32 :: [] ∧
    (s [.rd 0xFC 4]).pending = .rd 0xFC 4 :: [] ∧ (s [.wr 0x08 4 0x55#32]).pending = .wr 0x08 4 0x55#32 :: [] ∧
    after (step (s [.reset])) (fun u => u.status == .idle) = true :=
  ⟨.inr (.inl rfl), rfl, rfl, rfl, rfl, by decide +kernel⟩

/-- StateIsWrittenOnlyByStartFinishReset: FINISH changes STATE, and so does a whole call, to DONE. -/
theorem witness_StateIsWrittenOnlyByStartFinishReset :
    let s := busyP6 ⟨.finish, 4, 0, 2⟩ colP6
    after (step s) (fun u => u == { s with status := .done }) = true ∧ State.status { s with status := .done } ≠ s.status ∧
    after (step { p1 with pending := [.call 0#32] }) (fun u => u.status == .done && u.pending == [.poll]) = true := by
  decide +kernel

/-- ResetClearsTheRegisters: reset in BUSY, an address in OUT and one outside. -/
theorem witness_ResetClearsTheRegisters :
    let s := busyP1 [.reset]
    s.pending = .reset :: [] ∧ s.status = .busy ∧ s.mem.wf = true ∧ (outSpan tagP1 s.regs).has 0x6000 = true ∧
    (outSpan tagP1 s.regs).has 0x6001 = false ∧ (colbufSpan s.regs).has 0x6001 = false := by decide +kernel

/-- ResetClearsTheRegisters: the launch premises of that state. -/
theorem witness_ResetClearsTheRegisters_launchable :
    Launchable tagP1 (busyP1 [.reset]) := launchable_p1

end Sys2Proof.Tests
end

section
/-! SUPPORT. The arithmetic of an accumulator (00_scope R10): the model's `s32` is the balanced residue modulo `2^32`, so
a 32-bit word read as signed is `s32` of the integer it was made of. -/

namespace Sys2Proof.Machine

theorem s32_eq_bmod (v : Int) : s32 v = v.bmod 4294967296 := by
  rw [s32, Int.bmod_eq_emod]
  split <;> omega

theorem s32_range (v : Int) : -2147483648 ≤ s32 v ∧ s32 v ≤ 2147483647 := by
  unfold s32
  omega

theorem sub_s32_emod (v : Int) : (v - s32 v) % 4294967296 = 0 := by
  unfold s32
  omega

theorem word32_toInt (v : Int) : (word32 v).toInt = s32 v := by
  rw [word32, BitVec.toInt_ofInt, s32_eq_bmod]

theorem mac_toInt (acc : Word) (w a : Int) : (mac acc w a).toInt = s32 (acc.toInt + w * a) :=
  word32_toInt _

end Sys2Proof.Machine

open Sys2Proof Sys2Proof.Machine

/-- Settles O38: a multiply-accumulate is one `word32`, and `s32` is in range and congruent by its own two lemmas. -/
theorem accumulatorsWrapModulo32Bits : Obligations.AccumulatorsWrapModulo32Bits := by
  intro acc w a
  obtain ⟨hlo, hhi⟩ := s32_range (acc.toInt + w * a)
  exact ⟨mac_toInt acc w a, hlo, hhi, sub_s32_emod _⟩
end

section
/-! SUPPORT. The machine left to itself: with nothing pending every step is the block's turn (log 15), so a run of `core`
is the run of micro-steps `runCall`; and START answers exactly what the whole call launches with. -/

namespace Sys2Proof.Machine

/-! ## One step with nothing pending -/

theorem step_of_pending_nil {s : State} (hp : s.pending = []) : step s = blockStep s := by
  simp only [step, fetch, hp]

theorem blockStep_busy {t : Tag} {s : State} (hb : s.status = .busy) (hm : modeDecode s.regs.modeW = .legal t) :
    blockStep s = .next (microStep t s) := by
  simp only [blockStep, hb, hm, if_true]

theorem blockStep_not_busy {s : State} (hb : s.status ≠ .busy) : blockStep s = .next s := by
  simp only [blockStep, hb, if_false]

/-! ## A run with nothing pending -/

theorem runCall_not_busy (t : Tag) (k : Nat) {s : State} (hb : s.status ≠ .busy) : runCall t k s = s := by
  cases k with
  | zero => rfl
  | succ k => rw [runCall, if_neg hb]

theorem run_succ {k : Nat} {s u : State} (h : step s = .next u) :
    Host.Core.run core (k + 1) s = Host.Core.run core k u := by
  have hcore : core.step s = .next u := h
  simp only [Host.Core.run, hcore]

/-- A block left to itself runs its call: `k` steps of the machine are `k` micro-steps, stopping where the block stops
(40_host_commands R128). -/
theorem run_eq_runCall {t : Tag} (k : Nat) {s : State} (hp : s.pending = [])
    (hm : modeDecode s.regs.modeW = .legal t) : Host.Core.run core k s = .next (runCall t k s) := by
  induction k generalizing s with
  | zero => rfl
  | succ k ih =>
    by_cases hb : s.status = .busy
    · rw [run_succ ((step_of_pending_nil hp).trans (blockStep_busy hb hm)), runCall, if_pos hb]
      exact ih (by rw [microStep_pending, hp]) (by rw [microStep_regs, hm])
    · rw [run_succ ((step_of_pending_nil hp).trans (blockStep_not_busy hb)), ih hp hm,
        runCall_not_busy t k hb, runCall_not_busy t (k + 1) hb]

/-! ## START and the whole call launch alike -/

theorem acceptsStart_iff (st : Status) :
    acceptsStart st = true ↔ st = .idle ∨ st = .done ∨ st = .sizeMismatch := by
  cases st <;> decide

/-- A launch that answers leaves the configuration and the host's operations alone. -/
theorem launch_next_same {t : Tag} {s u : State} (h : launch t s = .next u) :
    u.regs = s.regs ∧ u.pending = s.pending := by
  rcases launch_cases t s with ⟨-, hl⟩ | ⟨-, -, hl⟩ | ⟨-, -, -, hl⟩ | ⟨-, -, -, hl⟩ <;> rw [hl] at h <;> cases h
  · exact ⟨rfl, rfl⟩
  · exact ⟨rfl, rfl⟩

theorem startCommand_legal {t : Tag} {s : State} (ha : acceptsStart s.status = true)
    (hm : modeDecode s.regs.modeW = .legal t) : startCommand s = launch t s := by
  simp only [startCommand, ha, hm, if_true]

theorem convCall_of_launch {t : Tag} {s u : State} (ha : acceptsStart s.status = true) (hl : launch t s = .next u) :
    convCall t s = .next (runCall t (callSteps s.regs) u) := by
  simp only [convCall, ha, hl, if_true]

end Sys2Proof.Machine

open Sys2Proof Sys2Proof.Machine

/-- Settles O29: START and the whole call answer by the same `launch`, and from the launched state a run of the machine
is the run of micro-steps of the whole call. -/
theorem microStepsMakeTheWholeCall : Obligations.MicroStepsMakeTheWholeCall := by
  intro i t s u htag hmode hpend hstatus hstart
  have hacc : acceptsStart s.status = true := (acceptsStart_iff _).mpr hstatus
  have hlaunch : launch t s = .next u := (startCommand_legal hacc hmode).symm.trans hstart
  obtain ⟨hregs, hpend'⟩ := launch_next_same hlaunch
  rw [Sys2Proof.Laws.exec_conv htag, convCall_of_launch hacc hlaunch]
  exact run_eq_runCall _ (hpend'.trans hpend) (by rw [hregs, hmode])
end

section
/-! SUPPORT. The register file (10_state R28, R40 to R42): what a read gives after a write, and what a step does with each
register access the host has pending. -/

namespace Sys2Proof.Machine

/-! ## Reading a register -/

/-- CMD and the offsets past SCRB_BASE hold nothing (10_state R40). -/
theorem readReg_unstored (s : State) {off : Nat} (h : off = 0x00 ∨ 0x4C ≤ off) : readReg s off = 0#32 := by
  unfold readReg
  split
  case h_19 => rfl
  all_goals omega

theorem readReg_reset (off : Nat) : readReg State.reset off = 0#32 := by
  unfold readReg
  split <;> rfl

/-! ## Reading after writing -/

/-- Zero-extending the low `w` bits of a word masks the others away. -/
theorem setWidth_setWidth_eq_and (w : Nat) (v : Word) :
    (v.setWidth w).setWidth 32 = v &&& (BitVec.allOnes w).setWidth 32 := by
  ext i hi
  simp [hi, Bool.and_comm]

/-- Every offset but STATUS reads back the written bits it stores; one that stores none reads 0. -/
theorem readReg_write_same (s : State) {off : Nat} (v : Word) (h : off ≠ 0x04) :
    readReg { s with regs := s.regs.write off v } off = v &&& definedBits off := by
  unfold Regs.write
  split
  -- MODE, KSIZE, STRIDE; then DIM_IN, CH_IN, CH_OUT; then ZP; then an offset that is not RW
  case h_1 | h_5 | h_7 => exact setWidth_setWidth_eq_and 8 v
  case h_2 | h_3 | h_4 => exact setWidth_setWidth_eq_and 16 v
  case h_8 => exact setWidth_setWidth_eq_and 24 v
  case h_18 =>
    have hbits : definedBits off = 0#32 := by
      unfold definedBits
      split <;> first | rfl | contradiction
    rw [hbits, BitVec.and_zero]
    unfold readReg
    split <;> first | rfl | contradiction
  all_goals exact BitVec.and_allOnes.symm

/-- A write changes what its own offset reads as and nothing else. -/
theorem readReg_write_other (s : State) {off off' : Nat} (v : Word) (h : off' ≠ off) :
    readReg { s with regs := s.regs.write off v } off' = readReg s off' := by
  unfold Regs.write
  split
  case h_18 => rfl
  all_goals
    unfold readReg
    split <;> first | rfl | exact absurd rfl h

/-- STATUS and the offsets past SCRB_BASE store nothing. -/
theorem Regs.write_unstored (r : Regs) {off : Nat} (v : Word) (h : off = 0x04 ∨ 0x4C ≤ off) : r.write off v = r := by
  unfold Regs.write
  split
  case h_18 => rfl
  all_goals omega

/-! ## The step of a register access -/

theorem regAccessOk_iff (off width : Nat) :
    regAccessOk off width = true ↔ width = 4 ∧ off % 4 = 0 ∧ off < 0x100 := by
  show (width == 4 && off % 4 == 0 && decide (off < 0x100)) = true ↔ _
  simp only [Bool.and_eq_true, beq_iff_eq, decide_eq_true_eq, and_assoc]

theorem step_rd {s : State} {off width : Nat} {rest : List HostOp} (hp : s.pending = .rd off width :: rest) :
    step s = hostRead off width { s with pending := rest } := by
  simp only [step, fetch, hp]

theorem step_wr_bad {s : State} {off width : Nat} {v : Word} {rest : List HostOp}
    (hp : s.pending = .wr off width v :: rest) (hk : regAccessOk off width = false) :
    step s = .refused .badRegAccess := by
  simp only [step, fetch, hp, hk, if_true]

/-- A defined write to any offset but CMD is the register file's write. -/
theorem step_wr {s : State} {off : Nat} {v : Word} {rest : List HostOp} (hp : s.pending = .wr off 4 v :: rest)
    (h0 : off ≠ 0) (h4 : off % 4 = 0) (hlt : off < 0x100) :
    step s = .next (writeReg { s with pending := rest } off v) := by
  have hk : regAccessOk off 4 = true := (regAccessOk_iff off 4).mpr ⟨rfl, h4, hlt⟩
  simp only [step, fetch, hp, hk, h0, Bool.true_eq_false, if_false]

/-- A write to CMD delivers a command word (30_encoding R104). -/
theorem step_wr_cmd {s : State} {v : Word} {rest : List HostOp} (hp : s.pending = .wr 0 4 v :: rest) :
    step s = exec (decode .cmd v) { s with pending := rest } := by
  have hk : regAccessOk 0 4 = true := rfl
  simp only [step, fetch, hp, hk, Bool.true_eq_false, if_false, if_true]

theorem step_poll {s : State} {rest : List HostOp} (hp : s.pending = .poll :: rest) : step s = hostPoll rest s := by
  simp only [step, fetch, hp]

theorem writeReg_busy {s : State} (off : Nat) (v : Word) (hb : s.status = .busy) : writeReg s off v = s := by
  rw [writeReg, if_pos hb]

theorem writeReg_not_busy {s : State} (off : Nat) (v : Word) (hb : s.status ≠ .busy) :
    writeReg s off v = { s with regs := s.regs.write off v } := by
  rw [writeReg, if_neg hb]

@[simp] theorem writeReg_status (s : State) (off : Nat) (v : Word) : (writeReg s off v).status = s.status := by
  rcases writeReg_cases s off v with ⟨-, h⟩ | ⟨-, h⟩ <;> rw [h]

/-! ## Instructions where no START is acted on -/

/-- In BUSY and in FAULT every instruction does nothing (10_state R34, 60_exceptions R306). -/
theorem exec_not_accepting (i : Instr) {s : State} (ha : acceptsStart s.status = false) : exec i s = .next s := by
  rcases Laws.exec_cases i s with ⟨t, -, h⟩ | ⟨-, h⟩ | ⟨-, h⟩ | h
  · simp only [h, convCall, ha, Bool.false_eq_true, if_false]
  · simp only [h, reservedMode, ha, Bool.false_eq_true, if_false]
  · simp only [h, startCommand, ha, Bool.false_eq_true, if_false]
  · exact h

theorem exec_busy (i : Instr) {s : State} (hb : s.status = .busy) : exec i s = .next s :=
  exec_not_accepting i (by rw [hb]; rfl)

end Sys2Proof.Machine

open Sys2Proof Sys2Proof.Machine

/-- Settles O10: outside BUSY the step is the register file's write, whose two read rules are lemmas. -/
theorem registerWriteReadsBack : Obligations.RegisterWriteReadsBack := by
  intro s off v rest hb hlo hhi h4 hp
  have hwrite := writeReg_not_busy (s := { s with pending := rest }) off v hb
  exact ⟨_, (step_wr hp (by omega) h4 (by omega)).trans (congrArg _ hwrite), rfl,
    readReg_write_same _ v (by omega), fun off' hne => readReg_write_other _ v hne⟩

/-- Settles O11: such an offset stores nothing in any STATE, and none but STATUS holds anything to read. -/
theorem unstoredOffsetsIgnoreWrites : Obligations.UnstoredOffsetsIgnoreWrites := by
  intro s off v rest
  refine ⟨fun hoff hp => ?_, readReg_unstored s⟩
  rw [step_wr hp (by omega) (by omega) (by omega)]
  rcases writeReg_cases { s with pending := rest } off v with ⟨-, h⟩ | ⟨-, h⟩
  · rw [h]
  · rw [h, Regs.write_unstored _ v (by omega)]

/-- Settles O12: at CMD no instruction runs in BUSY, at every other offset the write is dropped. -/
theorem busyIgnoresEveryRegisterWrite : Obligations.BusyIgnoresEveryRegisterWrite := by
  intro s off v rest hb hlt h4 hp
  by_cases h0 : off = 0
  · subst h0
    rw [step_wr_cmd hp]
    exact exec_busy _ hb
  · exact (step_wr hp h0 h4 hlt).trans (congrArg _ (writeReg_busy off v hb))

/-- Settles O13: a defined read answers, and outside BUSY a POLL is the read of STATUS. -/
theorem registerReadHasNoSideEffect : Obligations.RegisterReadHasNoSideEffect := by
  intro s off rest
  refine ⟨fun hlt h4 hp => ?_, fun hb hp => ?_, fun hb hp => ?_⟩
  · rw [step_rd hp, hostRead, if_pos ((regAccessOk_iff off 4).mpr ⟨rfl, h4, hlt⟩)]
    simp [showsCompletion, readReg]
  · rw [step_poll hp]
    rcases hostPoll_cases rest s with ⟨h, -⟩ | ⟨-, h⟩
    · exact absurd h hb
    · exact h
  · rw [step_poll hp, hostPoll, if_pos hb]

/-- Settles O14: `regAccessOk` is the negated premise, and both accesses ask it first. -/
theorem badRegisterAccessIsRefused : Obligations.BadRegisterAccessIsRefused := by
  intro s off width v rest hbad hp
  have hk : regAccessOk off width = false := by
    rw [Bool.eq_false_iff, ne_eq, regAccessOk_iff]
    exact hbad
  rcases hp with hp | hp
  · simp only [step_rd hp, hostRead, hk, Bool.false_eq_true, if_false]
  · exact step_wr_bad hp hk

/-- Settles O15: offset 0x04 reads `statusCode`, which names one code per STATE. -/
theorem statusReadsItsCode : Obligations.StatusReadsItsCode := by
  intro s
  show statusCode s.status = _
  cases s.status <;> rfl

/-- Settles O59. -/
theorem resetRegistersReadZero : Obligations.ResetRegistersReadZero := ⟨rfl, readReg_reset⟩

/-- Settles O52: memory at reset is canonical, and STATE is not BUSY. -/
theorem resetHasTheInvariant : Obligations.ResetHasTheInvariant := ⟨reset_mem_wf, nofun⟩
end

section
/-! SUPPORT. The host's accesses to data memory (10_state R43; 20_memory R78, R81, R83): which bytes are hidden from it
or closed to it, and what a step does with each access. -/

namespace Sys2Proof.Machine

/-! ## The regions of the call in progress -/

theorem callTag_eq_some {s : State} {t : Tag} : callTag s = some t ↔ modeDecode s.regs.modeW = .legal t := by
  unfold callTag
  split <;> simp_all

theorem inCallRegion_iff (s : State) (a : Nat) :
    inCallRegion s a = true ↔
      ∃ t, modeDecode s.regs.modeW = .legal t ∧ (callSpans t s.regs).any (fun q => q.has a) = true := by
  simp only [← callTag_eq_some]
  unfold inCallRegion
  cases callTag s <;> simp

theorem inWrittenRegion_iff (s : State) (a : Nat) :
    inWrittenRegion s a = true ↔
      ∃ t, modeDecode s.regs.modeW = .legal t ∧ ((outSpan t s.regs).has a = true ∨ (colbufSpan s.regs).has a = true) := by
  simp only [← callTag_eq_some]
  unfold inWrittenRegion
  cases callTag s <;> simp

theorem hiddenFromHost_iff (s : State) (a : Nat) :
    hiddenFromHost s a = true ↔ s.unseen.any (fun q => q.has a) = true ∨
      (s.status = .busy ∧ ∃ t, modeDecode s.regs.modeW = .legal t ∧
        ((outSpan t s.regs).has a = true ∨ (colbufSpan s.regs).has a = true)) := by
  rw [hiddenFromHost, Bool.or_eq_true, Bool.and_eq_true, decide_eq_true_eq, inWrittenRegion_iff]

/-! ## The step of a memory access -/

section Access

variable {s : State} {a : Addr} {v : Byte} {rest : List HostOp}

theorem step_memRd (hp : s.pending = .memRd a :: rest) : step s = hostMemRead a { s with pending := rest } := by
  simp only [step, fetch, hp]

theorem step_memWr (hp : s.pending = .memWr a v :: rest) : step s = hostMemWrite a v { s with pending := rest } := by
  simp only [step, fetch, hp]

theorem hostMemRead_unbacked (hu : addrBacked s.holes a.toNat = false) :
    hostMemRead a s = .fault .unbackedAddress := by
  rw [hostMemRead, if_pos hu]

theorem hostMemWrite_unbacked (v : Byte) (hu : addrBacked s.holes a.toNat = false) :
    hostMemWrite a v s = .fault .unbackedAddress := by
  rw [hostMemWrite, if_pos hu]

theorem hostMemRead_hidden (hk : addrBacked s.holes a.toNat = true) (hh : hiddenFromHost s a.toNat = true) :
    hostMemRead a s =
      .next { s with rdata := (Config.freeByte s.draws a.toNat).setWidth 32, draws := s.draws + 1 } := by
  simp only [hostMemRead, hk, hh, Bool.true_eq_false, if_false, if_true]

theorem hostMemRead_visible (hk : addrBacked s.holes a.toNat = true) (hh : ¬ hiddenFromHost s a.toNat = true) :
    hostMemRead a s = .next { s with rdata := (s.mem.read a.toNat).setWidth 32 } := by
  simp only [hostMemRead, hk, hh, Bool.true_eq_false, Bool.false_eq_true, if_false]

theorem hostMemWrite_closed (v : Byte) (hk : addrBacked s.holes a.toNat = true) (hb : s.status = .busy)
    (hc : inCallRegion s a.toNat = true) : hostMemWrite a v s = .refused .hostWriteDuringCall := by
  simp only [hostMemWrite, hk, hb, hc, Bool.true_eq_false, if_false, and_self, if_true]

theorem hostMemWrite_open (v : Byte) (hk : addrBacked s.holes a.toNat = true)
    (hc : ¬ (s.status = .busy ∧ inCallRegion s a.toNat = true)) :
    hostMemWrite a v s = .next { s with mem := s.mem.write a.toNat v } := by
  simp only [hostMemWrite, hk, hc, Bool.true_eq_false, if_false]

end Access

end Sys2Proof.Machine

open Sys2Proof Sys2Proof.Machine

/-- Settles O17: the write is made, and the memory laws say what it reads as. -/
theorem hostMemoryWriteIsReadBack : Obligations.HostMemoryWriteIsReadBack := by
  intro s a v rest hwf hk hopen hp
  have hwrite := hostMemWrite_open (s := { s with pending := rest }) v hk
    (fun ⟨hb, hc⟩ => by rw [hopen hb] at hc; exact Bool.false_ne_true hc)
  have ha : a.toNat < Config.addrSpace := a.isLt
  exact ⟨_, (step_memWr hp).trans hwrite, rfl, write_wf v hwf ha, read_write_same _ v hwf,
    fun b hb => read_write_other _ v hb⟩

/-- Settles O18, access by access: the statement's conditions are the model's `hiddenFromHost` and `inCallRegion`. -/
theorem hostAccessesToDataMemory : Obligations.HostAccessesToDataMemory := by
  intro s a v rest
  refine ⟨fun hu hp => ?unbacked, fun hk hp => ⟨fun hh => ?hidden, fun hu hw => ?visible⟩,
    fun hk hp => ⟨fun t hb hm hc => ?closed, fun hopen => ?made⟩⟩
  case unbacked =>
    rcases hp with hp | hp
    · exact (step_memRd hp).trans (hostMemRead_unbacked hu)
    · exact (step_memWr hp).trans (hostMemWrite_unbacked v hu)
  case hidden => exact (step_memRd hp).trans (hostMemRead_hidden hk ((hiddenFromHost_iff _ _).mpr hh))
  case visible =>
    refine (step_memRd hp).trans (hostMemRead_visible hk fun hh => ?_)
    rcases (hiddenFromHost_iff _ _).mp hh with h | ⟨hb, t, hm, h⟩
    · exact Bool.false_ne_true (hu.symm.trans h)
    · obtain ⟨hout, hcol⟩ := hw hb t hm
      exact h.elim (fun h => Bool.false_ne_true (hout.symm.trans h)) (fun h => Bool.false_ne_true (hcol.symm.trans h))
  case closed =>
    exact (step_memWr hp).trans (hostMemWrite_closed v hk hb ((inCallRegion_iff _ _).mpr ⟨t, hm, hc⟩))
  case made =>
    refine (step_memWr hp).trans (hostMemWrite_open v hk fun ⟨hb, hc⟩ => ?_)
    obtain ⟨t, hm, hc⟩ := (inCallRegion_iff _ _).mp hc
    exact Bool.false_ne_true ((hopen hb t hm).symm.trans hc)
end

section
/-! SUPPORT. The sequencer of a whole call (40_host_commands R128 to R137): every micro-step moves SEQ one place along
its schedule, so a call that starts BUSY ends in DONE after exactly `callSteps` micro-steps. -/

namespace Sys2Proof.Machine

/-! ## The sequencer alone -/

/-- `SEQ` after the micro-step its phase names. -/
def nextSeq (r : Regs) (q : SeqState) : SeqState :=
  match q.phase with
  | .gather => seqAfterGather r q
  | .dot2 => seqAfterDot2 r q
  | .dot1 => seqAfterDot1 r q
  | .finish => q

theorem microStep_seq (t : Tag) (s : State) : (microStep t s).seq = nextSeq s.regs s.seq := by
  unfold microStep nextSeq
  split <;> simp [*]

/-- A point of a call's schedule: positions are gathered in pairs, each pair is consumed two channels at a time, and the
leftover position of an odd number one channel at a time (40_host_commands R130 to R135). -/
def OnSchedule (r : Regs) (q : SeqState) : Prop :=
  match q.phase with
  | .gather => q.pos < r.n ∧ q.fill = q.pos % 2
  | .dot2 => q.pos ≤ r.n ∧ q.pos % 2 = 0 ∧ q.chi < r.co ∧ q.chi % 2 = 0
  | .dot1 => q.pos = r.n ∧ r.n % 2 = 1 ∧ q.chi < r.co
  | .finish => True

/-- How many micro-steps the call still takes, FINISH included (40_host_commands R137). -/
def stepsLeft (r : Regs) (q : SeqState) : Nat :=
  match q.phase with
  | .gather => (r.n - q.pos) + ((r.n - q.pos + q.fill) / 2) * (r.co / 2) + (r.n % 2) * r.co + 1
  | .dot2 => (r.n - q.pos) + ((r.n - q.pos) / 2) * (r.co / 2) + (r.co - q.chi) / 2 + (r.n % 2) * r.co + 1
  | .dot1 => (r.co - q.chi) + 1
  | .finish => 1

variable {r : Regs} {q : SeqState}

theorem stepsLeft_gather (h : q.phase = .gather) : stepsLeft r q =
    (r.n - q.pos) + ((r.n - q.pos + q.fill) / 2) * (r.co / 2) + (r.n % 2) * r.co + 1 := by
  simp only [stepsLeft, h]

theorem stepsLeft_dot2 (h : q.phase = .dot2) : stepsLeft r q =
    (r.n - q.pos) + ((r.n - q.pos) / 2) * (r.co / 2) + (r.co - q.chi) / 2 + (r.n % 2) * r.co + 1 := by
  simp only [stepsLeft, h]

/-- From a GATHER the schedule goes on, one step shorter. -/
theorem seqAfterGather_schedule (hco : 0 < r.co) (hp : q.phase = .gather) (hs : OnSchedule r q) :
    OnSchedule r (seqAfterGather r q) ∧ stepsLeft r (seqAfterGather r q) + 1 = stepsLeft r q := by
  simp only [OnSchedule, hp] at hs
  obtain ⟨hpos, hfill⟩ := hs
  rw [stepsLeft_gather hp]
  unfold seqAfterGather
  split_ifs with hfull hlast
  · simp only [OnSchedule, stepsLeft, Nat.zero_mod, and_true, Nat.sub_zero]
    have hpair : (r.n - q.pos + q.fill) / 2 = (r.n - (q.pos + 1)) / 2 + 1 := by omega
    rw [hpair, Nat.add_mul]
    omega
  · simp only [OnSchedule, stepsLeft]
    have hnone : (r.n - q.pos + q.fill) / 2 = 0 := by omega
    have hodd : r.n % 2 = 1 := by omega
    rw [hnone, hodd]
    omega
  · simp only [OnSchedule, stepsLeft]
    have hsame : r.n - (q.pos + 1) + (q.fill + 1) = r.n - q.pos + q.fill := by omega
    rw [hsame]
    omega

/-- From a DOT2 the schedule goes on, one step shorter. -/
theorem seqAfterDot2_schedule (heven : r.co % 2 = 0) (hp : q.phase = .dot2) (hs : OnSchedule r q) :
    OnSchedule r (seqAfterDot2 r q) ∧ stepsLeft r (seqAfterDot2 r q) + 1 = stepsLeft r q := by
  simp only [OnSchedule, hp] at hs
  obtain ⟨hpos, hpair, hchi, hchi2⟩ := hs
  rw [stepsLeft_dot2 hp]
  unfold seqAfterDot2
  by_cases hrow : q.chi + 2 = r.co
  · by_cases hend : q.pos = r.n
    · simp only [OnSchedule, stepsLeft, hrow, hend, if_true, true_and, Nat.sub_self]
      have hn2 : r.n % 2 = 0 := by omega
      rw [hn2]
      omega
    · simp only [OnSchedule, stepsLeft, hrow, hend, if_true, if_false, Nat.add_zero]
      omega
  · simp only [OnSchedule, stepsLeft, hrow, if_false]
    omega

/-- From a DOT1 the schedule goes on, one step shorter. -/
theorem seqAfterDot1_schedule (hp : q.phase = .dot1) (hs : OnSchedule r q) :
    OnSchedule r (seqAfterDot1 r q) ∧ stepsLeft r (seqAfterDot1 r q) + 1 = stepsLeft r q := by
  simp only [OnSchedule, hp] at hs
  obtain ⟨hpos, hodd, hchi⟩ := hs
  unfold seqAfterDot1
  split_ifs with hrow
  · simp only [OnSchedule, stepsLeft, hp, true_and]
    omega
  · simp only [OnSchedule, stepsLeft, hp]
    omega

theorem nextSeq_schedule (hco : 0 < r.co) (heven : r.co % 2 = 0) (hp : q.phase ≠ .finish) (hs : OnSchedule r q) :
    OnSchedule r (nextSeq r q) ∧ stepsLeft r (nextSeq r q) + 1 = stepsLeft r q := by
  unfold nextSeq
  split
  · exact seqAfterGather_schedule hco ‹_› hs
  · exact seqAfterDot2_schedule heven ‹_› hs
  · exact seqAfterDot1_schedule ‹_› hs
  · exact absurd ‹_› hp

theorem stepsLeft_pos (r : Regs) (q : SeqState) : 0 < stepsLeft r q := by
  unfold stepsLeft
  split <;> omega

/-! ## A whole call -/

/-- A BUSY block on schedule is in DONE after the micro-steps it has left. -/
theorem runCall_stepsLeft {t : Tag} {s : State} (hb : s.status = .busy) (hco : 0 < s.regs.co)
    (heven : s.regs.co % 2 = 0) (hs : OnSchedule s.regs s.seq) :
    (runCall t (stepsLeft s.regs s.seq) s).status = .done := by
  generalize hk : stepsLeft s.regs s.seq = k
  induction k generalizing s with
  | zero => exact absurd hk (stepsLeft_pos _ _).ne'
  | succ k ih =>
    rw [runCall, if_pos hb]
    have hstatus := microStep_status t s
    by_cases hp : s.seq.phase = .finish
    · rw [if_pos hp] at hstatus
      rw [runCall_not_busy t k (by rw [hstatus]; decide), hstatus]
    · rw [if_neg hp] at hstatus
      obtain ⟨hs', hk'⟩ := nextSeq_schedule hco heven hp hs
      exact ih (hstatus.trans hb) (by simpa using hco) (by simpa using heven)
        (by simpa [microStep_seq] using hs') (by simp only [microStep_regs, microStep_seq]; omega)

theorem Regs.n_pos (r : Regs) : 0 < r.n := Nat.mul_pos (Nat.succ_pos _) (Nat.succ_pos _)

/-- An accepted call ends in DONE after `callSteps` micro-steps. -/
theorem runCall_accept_status {t : Tag} {s : State} (hsize : sizeOk t s.regs = true)
    (hin : inContract t s.regs s.mem = true) : (runCall t (callSteps s.regs) (accept t s)).status = .done := by
  obtain ⟨-, -, -, heven⟩ := (sizeOk_iff t s.regs).mp hsize
  obtain ⟨hone, -⟩ := (inContract_iff t s.regs s.mem).mp hin
  obtain ⟨-, -, hco, -⟩ := (premiseH1_iff s.regs).mp hone
  have hs : OnSchedule (accept t s).regs (accept t s).seq := ⟨s.regs.n_pos, rfl⟩
  exact runCall_stepsLeft (s := accept t s) rfl hco heven hs

end Sys2Proof.Machine
end

section
/-! SUPPORT. Who writes STATUS.STATE and the configuration registers (10_state R30, R34): what each instruction and the
block's turn can do to them, and from `step_cases` what a step can. -/

namespace Sys2Proof.Machine

variable {s u : State}

/-! ## Which instruction a port delivers -/

/-- A CMD word is START or does nothing (40_host_commands R121). -/
theorem exec_cmd (v : Word) (s : State) :
    (decode .cmd v = .start ∧ exec (decode .cmd v) s = startCommand s) ∨ exec (decode .cmd v) s = .next s := by
  rw [decode, decodeCmdWord]
  split
  case h_2 => exact .inl ⟨rfl, rfl⟩
  all_goals exact .inr rfl

theorem modeRow_ne_start (f : FoldPolicy) (ob wb ib : Width) (z : Bool) : modeRow f ob wb ib z ≠ .start := by
  unfold modeRow
  split <;> exact nofun

theorem decode_mode_ne_start (w : Word) : decode .mode w ≠ .start := by
  rw [decode, decodeModeWord]
  split
  · exact nofun
  · split
    · exact nofun
    · split
      · exact nofun
      · exact modeRow_ne_start _ _ _ _ _

/-! ## STATE -/

/-- A START that changes STATE is acted on, and its outcome is BUSY, SIZE_MISMATCH or FAULT (40_host_commands R122). -/
theorem startCommand_status (h : startCommand s = .next u) (hne : u.status ≠ s.status) :
    acceptsStart s.status = true ∧ (u.status = .busy ∨ u.status = .sizeMismatch ∨ u.status = .fault) := by
  rcases startCommand_cases s with ⟨-, hs⟩ | ⟨ha, -, hs⟩ | ⟨ha, t, -, hs⟩ <;> rw [hs] at h
  · cases h
    exact absurd rfl hne
  · cases h
    exact ⟨ha, .inr (.inr rfl)⟩
  · rcases launch_cases t s with ⟨-, hl⟩ | ⟨-, -, hl⟩ | ⟨-, -, -, hl⟩ | ⟨-, -, -, hl⟩ <;> rw [hl] at h <;> cases h
    · exact ⟨ha, .inr (.inl rfl)⟩
    · exact ⟨ha, .inl rfl⟩

/-- A whole call that changes STATE is acted on, and ends in DONE or SIZE_MISMATCH (40_host_commands R138). -/
theorem convCall_status {t : Tag} (h : convCall t s = .next u) (hne : u.status ≠ s.status) :
    acceptsStart s.status = true ∧ (u.status = .done ∨ u.status = .sizeMismatch) := by
  rcases convCall_cases t s with ⟨-, hc⟩ | ⟨-, q, -, hc⟩ | ⟨ha, x, hx, hc⟩ <;> rw [hc] at h <;> cases h
  · exact absurd rfl hne
  · refine ⟨ha, ?_⟩
    rcases launch_cases t s with ⟨-, hl⟩ | ⟨-, -, hl⟩ | ⟨-, -, -, hl⟩ | ⟨hsize, hin, -, hl⟩ <;>
      rw [hl] at hx <;> cases hx
    · rw [runCall_not_busy t _ (by exact nofun)]
      exact .inr rfl
    · exact .inl (runCall_accept_status hsize hin)

theorem reservedMode_status (h : reservedMode s = .next u) (hne : u.status ≠ s.status) :
    acceptsStart s.status = true ∧ u.status = .fault := by
  rcases Laws.reservedMode_cases s with ⟨ha, hr⟩ | ⟨-, hr⟩ <;> rw [hr] at h <;> cases h
  · exact ⟨ha, rfl⟩
  · exact absurd rfl hne

theorem exec_cmd_status {v : Word} (h : exec (decode .cmd v) s = .next u) (hne : u.status ≠ s.status) :
    acceptsStart s.status = true ∧ decode .cmd v = .start ∧
      (u.status = .busy ∨ u.status = .sizeMismatch ∨ u.status = .fault) := by
  rcases exec_cmd v s with ⟨hstart, he⟩ | he <;> rw [he] at h
  · obtain ⟨ha, hu⟩ := startCommand_status h hne
    exact ⟨ha, hstart, hu⟩
  · cases h
    exact absurd rfl hne

theorem exec_mode_status {w : Word} (h : exec (decode .mode w) s = .next u) (hne : u.status ≠ s.status) :
    acceptsStart s.status = true ∧ (u.status = .done ∨ u.status = .sizeMismatch ∨ u.status = .fault) := by
  rcases Laws.exec_cases (decode .mode w) s with ⟨t, -, he⟩ | ⟨-, he⟩ | ⟨hstart, -⟩ | he
  · obtain ⟨ha, hu⟩ := convCall_status (he.symm.trans h) hne
    exact ⟨ha, hu.imp_right .inl⟩
  · obtain ⟨ha, hu⟩ := reservedMode_status (he.symm.trans h) hne
    exact ⟨ha, .inr (.inr hu)⟩
  · exact absurd hstart (decode_mode_ne_start w)
  · cases he.symm.trans h
    exact absurd rfl hne

/-- The block's turn changes STATE by FINISH only (40_host_commands R136). -/
theorem blockStep_status (h : blockStep s = .next u) (hne : u.status ≠ s.status) :
    s.status = .busy ∧ s.seq.phase = .finish ∧ u.status = .done := by
  rcases blockStep_cases s with ⟨-, hb⟩ | ⟨hbusy, t, -, hb⟩ | ⟨-, -, hb⟩ <;> rw [hb] at h <;> cases h
  · exact absurd rfl hne
  · rw [microStep_status] at hne ⊢
    split at hne
    · exact ⟨hbusy, ‹_›, if_pos ‹_›⟩
    · exact absurd rfl hne

theorem hostPoll_status {rest : List HostOp} (h : hostPoll rest s = .next u) (hne : u.status ≠ s.status) :
    s.status = .busy ∧ s.seq.phase = .finish ∧ u.status = .done := by
  rcases hostPoll_cases rest s with ⟨-, hp⟩ | ⟨-, hp⟩ <;> rw [hp] at h
  · exact blockStep_status h hne
  · cases h
    exact absurd rfl hne

theorem hostMemRead_same {a : Addr} (h : hostMemRead a s = .next u) : u.status = s.status ∧ u.regs = s.regs := by
  obtain ⟨v, d, rfl⟩ := hostMemRead_next h
  exact ⟨rfl, rfl⟩

theorem hostMemWrite_same {a : Addr} {v : Byte} (h : hostMemWrite a v s = .next u) :
    u.status = s.status ∧ u.regs = s.regs := by
  obtain ⟨rfl, -⟩ := hostMemWrite_next h
  exact ⟨rfl, rfl⟩

/-! ## The configuration registers -/

theorem blockStep_regs (h : blockStep s = .next u) : u.regs = s.regs := by
  rcases blockStep_cases s with ⟨-, hb⟩ | ⟨-, t, -, hb⟩ | ⟨-, -, hb⟩ <;> rw [hb] at h <;> cases h
  · rfl
  · exact microStep_regs t s

theorem hostPoll_regs {rest : List HostOp} (h : hostPoll rest s = .next u) : u.regs = s.regs := by
  rcases hostPoll_cases rest s with ⟨-, hp⟩ | ⟨-, hp⟩ <;> rw [hp] at h
  · exact blockStep_regs h
  · cases h
    rfl

theorem exec_regs_of_busy {i : Instr} (hb : s.status = .busy) (h : exec i s = .next u) : u.regs = s.regs := by
  cases (exec_busy i hb).symm.trans h
  rfl

end Sys2Proof.Machine

open Sys2Proof Sys2Proof.Machine

/-- Settles O55: no instruction runs and no write is taken in BUSY; the block's turn and the host's other operations
leave the registers alone in every STATE. -/
theorem configurationIsConstantWhileBusy : Obligations.ConfigurationIsConstantWhileBusy := by
  intro s u hb hnoreset h
  rcases Laws.step_cases h with ⟨rest, -, hu⟩ | ⟨off, rest, -, -, -, rfl⟩ | ⟨v, rest, -, hu⟩ |
    ⟨off, v, rest, -, -, -, -, rfl⟩ | ⟨w, rest, -, hu⟩ | ⟨rest, -, hu⟩ | ⟨a, rest, -, hu⟩ | ⟨a, v, rest, -, hu⟩ |
    ⟨rest, hp, -⟩
  · exact (blockStep_regs hu :)
  · rfl
  · exact exec_regs_of_busy (s := { s with pending := rest }) hb hu
  · exact (congrArg State.regs (writeReg_busy (s := { s with pending := rest }) off v hb) :)
  ·
    rw [writeReg_busy (s := { s with pending := .poll :: rest }) 0x08 w hb] at hu
    exact exec_regs_of_busy (s := { s with pending := .poll :: rest }) hb hu
  · exact hostPoll_regs hu
  · exact (hostMemRead_same hu).2
  · exact (hostMemWrite_same hu).2
  · exact absurd hp (hnoreset rest)

/-- Settles O57: of what a step can be, only a command, a whole call, the block's turn and reset change STATE, each as
its own lemma says; that a whole call does not stop in BUSY is the length of its schedule. -/
theorem stateIsWrittenOnlyByStartFinishReset : Obligations.StateIsWrittenOnlyByStartFinishReset := by
  intro s u h hne
  rcases Laws.step_cases h with ⟨rest, -, hu⟩ | ⟨off, rest, -, -, -, rfl⟩ | ⟨v, rest, hp, hu⟩ |
    ⟨off, v, rest, -, -, -, -, rfl⟩ | ⟨w, rest, hp, hu⟩ | ⟨rest, -, hu⟩ | ⟨a, rest, -, hu⟩ | ⟨a, v, rest, -, hu⟩ |
    ⟨rest, hp, rfl⟩
  · exact .inr (.inr (.inr (blockStep_status hu hne :)))
  · exact absurd rfl hne
  ·
    obtain ⟨ha, hstart, hst⟩ := exec_cmd_status hu hne
    exact .inr (.inl ⟨ha, v, rest, hp, hstart, hst⟩)
  · exact absurd (writeReg_status _ off v) hne
  ·
    obtain ⟨ha, hst⟩ := exec_mode_status hu (by rwa [writeReg_status])
    rw [writeReg_status] at ha
    exact .inr (.inr (.inl ⟨ha, ⟨w, rest, hp⟩, hst⟩))
  · exact .inr (.inr (.inr (hostPoll_status hu hne)))
  · exact absurd (hostMemRead_same hu).1 hne
  · exact absurd (hostMemWrite_same hu).1 hne
  · exact .inl ⟨rest, hp, rfl⟩
end

section
/-! SUPPORT. SCRB_BASE (10_state R39, 20_memory R75): changing it commutes with every operation an instruction is made
of. Region SCRB is empty, so it meets the launch premises wherever it lies. -/

namespace Sys2Proof.Machine

/-- A configuration with another SCRB_BASE. -/
def Regs.withScrb (r : Regs) (v : Addr) : Regs := { r with scrbBase := v }

/-- A state with another SCRB_BASE. -/
def State.withScrb (s : State) (v : Addr) : State := { s with regs := s.regs.withScrb v }

/-- An outcome whose next state, if it has one, has another SCRB_BASE. -/
def outWithScrb (o : Out) (v : Addr) : Out :=
  match o with
  | .next u => .next (u.withScrb v)
  | .fault e => .fault e
  | .refused q => .refused q

variable (t : Tag) (r : Regs) (s : State) (m : Memory) (v : Addr)

@[simp] theorem withScrb_status : (s.withScrb v).status = s.status := rfl

@[simp] theorem withScrb_regs : (s.withScrb v).regs = s.regs.withScrb v := rfl

@[simp] theorem withScrb_seq : (s.withScrb v).seq = s.seq := rfl

@[simp] theorem withScrb_col0 : (s.withScrb v).col0 = s.col0 := rfl

@[simp] theorem withScrb_col1 : (s.withScrb v).col1 = s.col1 := rfl

@[simp] theorem withScrb_mem : (s.withScrb v).mem = s.mem := rfl

@[simp] theorem withScrb_holes : (s.withScrb v).holes = s.holes := rfl

/-! ## The micro-steps -/

theorem dot2_withScrb (c : Nat) (col0 col1 : List Elem) :
    dot2 t (r.withScrb v) m c col0 col1 = dot2 t r m c col0 col1 := rfl

theorem pack0_withScrb (pos c : Nat) (acc : Word) :
    pack0 t pos c acc (s.withScrb v) = (pack0 t pos c acc s).withScrb v := rfl

theorem pack1_withScrb (pos c : Nat) (acc : Word) :
    pack1 t pos c acc (s.withScrb v) = (pack1 t pos c acc s).withScrb v := rfl

theorem withAcc_withScrb (q : Acc4) : (s.withScrb v).withAcc q = (s.withAcc q).withScrb v := rfl

theorem seqAfterDot2_withScrb (q : SeqState) : seqAfterDot2 (r.withScrb v) q = seqAfterDot2 r q := rfl

theorem gather_withScrb : gather t (s.withScrb v) = (gather t s).withScrb v := by
  by_cases h : s.seq.fill = 0
  · simp only [gather, withScrb_seq, h, if_true]
    rfl
  · simp only [gather, withScrb_seq, h, if_false]
    rfl

theorem dot2Step_withScrb : dot2Step t (s.withScrb v) = (dot2Step t s).withScrb v := by
  simp only [dot2Step, withScrb_regs, withScrb_seq, withScrb_mem, withScrb_col0, withScrb_col1, dot2_withScrb,
    withAcc_withScrb, pack0_withScrb, pack1_withScrb, seqAfterDot2_withScrb]
  rfl

theorem dot1Step_withScrb : dot1Step t (s.withScrb v) = (dot1Step t s).withScrb v := rfl

theorem microStep_withScrb : microStep t (s.withScrb v) = (microStep t s).withScrb v := by
  unfold microStep
  rw [withScrb_seq]
  split
  · exact gather_withScrb t s v
  · exact dot2Step_withScrb t s v
  · exact dot1Step_withScrb t s v
  · rfl

theorem runCall_withScrb (k : Nat) : runCall t k (s.withScrb v) = (runCall t k s).withScrb v := by
  induction k generalizing s with
  | zero => rfl
  | succ k ih =>
    simp only [runCall, withScrb_status, microStep_withScrb, ih]
    split <;> rfl

/-! ## The launch -/

/-- What every empty region SCRB has, the regions of a call have alike for every SCRB_BASE. -/
theorem callSpans_all_withScrb {p : Span → Bool} (h : ∀ r, p (scrbSpan r) = true) :
    (callSpans t (r.withScrb v)).all p = (callSpans t r).all p := by
  simp only [callSpans, List.all_append, List.all_cons, h]
  rfl

theorem premiseH3_withScrb : premiseH3 t (r.withScrb v) = premiseH3 t r :=
  callSpans_all_withScrb t r v fun r => decide_eq_true r.scrbBase.isLt.le

theorem premiseH5_withScrb (holes : List Span) : premiseH5 t (r.withScrb v) holes = premiseH5 t r holes :=
  callSpans_all_withScrb t r v fun _ => List.all_eq_true.mpr fun _ _ => rfl

theorem inContract_withScrb : inContract t (r.withScrb v) m = inContract t r m := by
  rw [inContract, premiseH3_withScrb]
  rfl

theorem sizeOk_withScrb : sizeOk t (r.withScrb v) = sizeOk t r := rfl

theorem launch_withScrb : launch t (s.withScrb v) = outWithScrb (launch t s) v := by
  simp only [launch, withScrb_regs, withScrb_mem, withScrb_holes, sizeOk_withScrb, inContract_withScrb,
    premiseH5_withScrb]
  split_ifs <;> rfl

/-! ## The instructions -/

theorem startCommand_withScrb : startCommand (s.withScrb v) = outWithScrb (startCommand s) v := by
  have hmode : (s.withScrb v).regs.modeW = s.regs.modeW := rfl
  rw [startCommand, startCommand, hmode, withScrb_status]
  split
  · split
    · rfl
    · exact launch_withScrb _ s v
  · rfl

theorem convCall_withScrb : convCall t (s.withScrb v) = outWithScrb (convCall t s) v := by
  have hsteps : callSteps (s.withScrb v).regs = callSteps s.regs := rfl
  rw [convCall, convCall, launch_withScrb, hsteps, withScrb_status]
  split
  · cases launch t s with
    | next u => exact congrArg _ (runCall_withScrb t u v _)
    | fault e => rfl
    | refused q => rfl
  · rfl

theorem reservedMode_withScrb : reservedMode (s.withScrb v) = outWithScrb (reservedMode s) v := by
  rw [reservedMode, reservedMode, withScrb_status]
  split <;> rfl

/-- Which shared operation an instruction is does not depend on the state. -/
theorem exec_eq_cases (i : Instr) :
    (∃ t, ∀ s, exec i s = convCall t s) ∨ (∀ s, exec i s = reservedMode s) ∨ (∀ s, exec i s = startCommand s) ∨
      ∀ s, exec i s = .next s := by
  cases i <;> first
    | exact .inl ⟨_, fun _ => rfl⟩
    | exact .inr (.inl fun _ => rfl)
    | exact .inr (.inr (.inl fun _ => rfl))
    | exact .inr (.inr (.inr fun _ => rfl))

/-- An instruction with another SCRB_BASE answers what it answers, with that SCRB_BASE. -/
theorem exec_withScrb (i : Instr) : exec i (s.withScrb v) = outWithScrb (exec i s) v := by
  rcases exec_eq_cases i with ⟨t, h⟩ | h | h | h <;> rw [h, h]
  · exact convCall_withScrb t s v
  · exact reservedMode_withScrb s v
  · exact startCommand_withScrb s v
  · rfl

end Sys2Proof.Machine

open Sys2Proof Sys2Proof.Machine

/-- Settles O60: changing SCRB_BASE commutes with every instruction. -/
theorem secondScratchBufferIsNeverUsed : Obligations.SecondScratchBufferIsNeverUsed := by
  intro i s v
  have h : exec i { s with regs := { s.regs with scrbBase := v } } = outWithScrb (exec i s) v := exec_withScrb s v i
  rw [h]
  cases exec i s <;> rfl
end

section
/-! SUPPORT. `MemRead` and `MemWrite` (20_memory R61): both go byte by byte from the lowest address, so each law is an
induction on the number of bytes whose step is one read or one write. -/

namespace Sys2Proof.Machine

/-! ## MemRead -/

theorem succ_add_eq_add_succ (addr i : Nat) : addr + 1 + i = addr + (i + 1) := by omega

theorem memRead_succ (m : Memory) (addr k : Nat) :
    memRead m addr (k + 1) = (m.read (wrapAddr addr)).toNat + 256 * memRead m (addr + 1) k := rfl

theorem memRead_eq_sum (m : Memory) (addr n : Nat) :
    memRead m addr n = ((List.range n).map (fun i => (m.read (wrapAddr (addr + i))).toNat * 256 ^ i)).sum := by
  induction n generalizing addr with
  | zero => rfl
  | succ k ih =>
    rw [memRead_succ, ih, List.range_succ_eq_map, List.map_cons, List.sum_cons, List.map_map, ← List.sum_map_mul_left]
    simp [Function.comp_def, pow_succ', Nat.mul_left_comm, succ_add_eq_add_succ]

theorem memRead_lt (m : Memory) (addr n : Nat) : memRead m addr n < 256 ^ n := by
  induction n generalizing addr with
  | zero => exact Nat.one_pos
  | succ k ih =>
    have hbyte := (m.read (wrapAddr addr)).isLt
    have hrest := ih (addr + 1)
    rw [memRead_succ, pow_succ']
    omega

/-- A memory that holds the bytes of `v` from the least significant one on is read as `v`. -/
theorem memRead_of_bytes {m : Memory} {addr n v : Nat}
    (h : ∀ i, i < n → (m.read (wrapAddr (addr + i))).toNat = v / 256 ^ i % 256) :
    memRead m addr n = v % 256 ^ n := by
  induction n generalizing addr v with
  | zero => exact (Nat.mod_one v).symm
  | succ k ih =>
    have hlow : (m.read (wrapAddr addr)).toNat = v % 256 := by simpa using h 0 k.succ_pos
    have hrest : memRead m (addr + 1) k = v / 256 % 256 ^ k := ih fun i hi => by
      rw [Nat.div_div_eq_div_mul, ← pow_succ', succ_add_eq_add_succ]
      exact h (i + 1) (Nat.succ_lt_succ hi)
    rw [memRead_succ, hlow, hrest, pow_succ', Nat.mod_mul]

/-! ## MemWrite -/

theorem memWrite_succ (m : Memory) (addr k v : Nat) :
    memWrite m addr (k + 1) v = memWrite (m.write (wrapAddr addr) (BitVec.ofNat 8 v)) (addr + 1) k (v / 256) := rfl

theorem read_memWrite_other {m : Memory} {addr n v b : Nat} (h : ∀ i, i < n → b ≠ wrapAddr (addr + i)) :
    (memWrite m addr n v).read b = m.read b := by
  induction n generalizing m addr v with
  | zero => rfl
  | succ k ih =>
    have hrest : ∀ i, i < k → b ≠ wrapAddr (addr + 1 + i) := fun i hi => by
      rw [succ_add_eq_add_succ]
      exact h (i + 1) (Nat.succ_lt_succ hi)
    exact (ih hrest).trans (read_write_other m _ (h 0 k.succ_pos))

/-- Two of the at most `2^32` addresses of one access differ, wrapped or not. -/
theorem wrapAddr_ne {addr i : Nat} (h : i + 1 < Config.addrSpace) : wrapAddr addr ≠ wrapAddr (addr + 1 + i) := by
  simp only [wrapAddr, Config.addrSpace] at h ⊢
  omega

theorem read_memWrite_byte {m : Memory} {addr n v i : Nat} (hm : m.wf = true) (hn : n ≤ Config.addrSpace)
    (hi : i < n) :
    ((memWrite m addr n v).read (wrapAddr (addr + i))).toNat = v / 256 ^ i % 256 := by
  induction n generalizing m addr v i with
  | zero => exact absurd hi (Nat.not_lt_zero i)
  | succ k ih =>
    cases i with
    | zero =>
      have hlater : ∀ j, j < k → wrapAddr addr ≠ wrapAddr (addr + 1 + j) := fun j hj => wrapAddr_ne (by omega)
      rw [memWrite_succ, Nat.add_zero addr, read_memWrite_other hlater, read_write_same _ _ hm]
      simp
    | succ j =>
      rw [memWrite_succ, ← succ_add_eq_add_succ addr j, pow_succ', ← Nat.div_div_eq_div_mul]
      exact ih (write_wf _ hm (wrapAddr_lt _)) (by omega) (Nat.lt_of_succ_lt_succ hi)

theorem memRead_memWrite {m : Memory} {addr n : Nat} (v : Nat) (hm : m.wf = true) (hn : n ≤ Config.addrSpace) :
    memRead (memWrite m addr n v) addr n = v % 256 ^ n :=
  memRead_of_bytes fun _ hi => read_memWrite_byte hm hn hi

/-! ## The signed reads (00_scope R10) -/

theorem s8_of_lt {v : Nat} (h : v < 256) : s8 v = if v < 128 then (v : Int) else v - 256 := by
  unfold s8
  split <;> omega

theorem s16_of_lt {v : Nat} (h : v < 65536) : s16 v = if v < 32768 then (v : Int) else v - 65536 := by
  unfold s16
  split <;> omega

theorem s32_of_lt {v : Nat} (h : v < 4294967296) :
    s32 v = if v < 2147483648 then (v : Int) else v - 4294967296 := by
  unfold s32
  split <;> omega

end Sys2Proof.Machine

open Sys2Proof Sys2Proof.Machine

/-- Settles O19: the laws of `MemRead` and `MemWrite`, each by induction on the number of bytes, and the signed reads
from the bound on what `MemRead` answers. -/
theorem memReadAndMemWriteAreLittleEndian : Obligations.MemReadAndMemWriteAreLittleEndian := by
  refine ⟨fun m addr n => ?_, fun m addr n v hm hn => ?_, fun m addr => ?_⟩
  · exact ⟨memRead_eq_sum m addr n, memRead_lt m addr n⟩
  · exact ⟨memWrite_wf addr n v hm, fun _ hi => read_memWrite_byte hm hn hi, fun _ hb => read_memWrite_other hb,
      memRead_memWrite v hm hn⟩
  · exact ⟨s8_of_lt (memRead_lt m addr 1), s16_of_lt (memRead_lt m addr 2), s32_of_lt (memRead_lt m addr 4)⟩
end

section
/-! SUPPORT. Packed bytes (20_memory R64, R65): an element takes the `bits` bits of its slot, most significant first, so
a byte is filled from the top and an OR into an empty slot is an addition. -/

namespace Sys2Proof.Machine

theorem byteElem_eq (b : Width) (slot : Nat) (B : Byte) :
    byteElem b slot B = B.toNat / 2 ^ (8 - b.bits * (slot + 1)) % 2 ^ b.bits := by
  rw [byteElem, Nat.and_two_pow_sub_one_eq_mod, Nat.shiftRight_eq_div_pow]

/-- The bits below slot `slot` are the slot below it and the bits below that one. -/
theorem low_bits_succ {b : Width} {slot : Nat} (hs : slot < b.epb) :
    8 - b.bits * slot = 8 - b.bits * (slot + 1) + b.bits := by
  have hle := Nat.mul_le_mul_left b.bits (Nat.succ_le_of_lt hs)
  rw [bits_mul_epb, Nat.mul_succ] at hle
  rw [Nat.mul_succ]
  omega

/-! ## Packing slot by slot -/

/-- The value of the first `k` slots of `PackByte(b, v)`. -/
def packFirst (b : Width) (v : List Nat) (k : Nat) : Nat :=
  ((List.range k).map (fun slot => v.getD slot 0 <<< (8 - b.bits * (slot + 1)))).sum

theorem packByte_eq_packFirst (b : Width) (v : List Nat) : packByte b v = packFirst b v b.epb := rfl

theorem packFirst_succ (b : Width) (v : List Nat) (k : Nat) :
    packFirst b v (k + 1) = packFirst b v k + v.getD k 0 <<< (8 - b.bits * (k + 1)) := by
  simp [packFirst, List.range_succ]

/-- The slots not filled yet are empty. -/
theorem two_pow_dvd_packFirst {b : Width} (v : List Nat) {k : Nat} (hk : k ≤ b.epb) :
    2 ^ (8 - b.bits * k) ∣ packFirst b v k := by
  induction k with
  | zero => exact Nat.dvd_zero _
  | succ k ih =>
    have hold : 2 ^ (8 - b.bits * (k + 1)) ∣ packFirst b v k :=
      (Nat.pow_dvd_pow 2 (by rw [low_bits_succ hk]; omega)).trans (ih (by omega))
    rw [packFirst_succ, Nat.shiftLeft_eq]
    exact hold.add (Nat.dvd_mul_left _ _)

theorem shiftLeft_slot_lt {b : Width} {slot lv : Nat} (hs : slot < b.epb) (hlv : lv < 2 ^ b.bits) :
    lv <<< (8 - b.bits * (slot + 1)) < 2 ^ (8 - b.bits * slot) := by
  rw [low_bits_succ hs, Nat.shiftLeft_eq, Nat.mul_comm, pow_add]
  exact Nat.mul_lt_mul_of_pos_left hlv (Nat.two_pow_pos _)

/-- PACK's OR of a level into a byte whose slots from its own on are empty adds the level at its slot. -/
theorem packOr_of_empty {b : Width} {slot lv p : Nat} (hs : slot < b.epb) (hlv : lv < 2 ^ b.bits)
    (hp : 2 ^ (8 - b.bits * slot) ∣ p) :
    packOr b (BitVec.ofNat 8 p) slot lv = BitVec.ofNat 8 (p + lv <<< (8 - b.bits * (slot + 1))) := by
  obtain ⟨q, rfl⟩ := hp
  rw [packOr, Nat.mod_eq_of_lt hs, ← BitVec.ofNat_or, Nat.mul_comm, ← Nat.shiftLeft_eq,
    Nat.shiftLeft_add_eq_or_of_lt (shiftLeft_slot_lt hs hlv)]

/-- Packing the elements of a byte rebuilds it from the top. -/
theorem packFirst_unpack {b : Width} (B : Byte) {k : Nat} (hk : k ≤ b.epb) :
    packFirst b ((List.range b.epb).map (fun i => byteElem b i B)) k =
      B.toNat / 2 ^ (8 - b.bits * k) * 2 ^ (8 - b.bits * k) := by
  induction k with
  | zero => simp [packFirst, Nat.div_eq_of_lt B.isLt]
  | succ k ih =>
    have helem : ((List.range b.epb).map (fun i => byteElem b i B)).getD k 0 = byteElem b k B := by
      simp [Nat.lt_of_succ_le hk]
    rw [packFirst_succ, ih (by omega), helem, byteElem_eq, Nat.shiftLeft_eq, low_bits_succ hk, pow_add,
      ← Nat.div_div_eq_div_mul, Nat.mul_comm (2 ^ (8 - b.bits * (k + 1))), ← Nat.mul_assoc, ← Nat.add_mul,
      Nat.div_add_mod']

section InRange

variable {b : Width} {v : List Nat} (hv : ∀ slot, v.getD slot 0 < 2 ^ b.bits)
include hv

theorem packFirst_add_le {k : Nat} (hk : k ≤ b.epb) : packFirst b v k + 2 ^ (8 - b.bits * k) ≤ 256 := by
  induction k with
  | zero => simp [packFirst]
  | succ k ih =>
    have hslot : (v.getD k 0 + 1) * 2 ^ (8 - b.bits * (k + 1)) ≤ 2 ^ (8 - b.bits * k) := by
      rw [low_bits_succ hk, Nat.add_comm (8 - _), pow_add]
      exact Nat.mul_le_mul_right _ (hv k)
    have hold := ih (by omega)
    rw [packFirst_succ, Nat.shiftLeft_eq]
    rw [Nat.succ_mul] at hslot
    omega

/-- The slot of a filled element holds it. -/
theorem packFirst_slot {slot k : Nat} (hs : slot < k) (hk : k ≤ b.epb) :
    packFirst b v k / 2 ^ (8 - b.bits * (slot + 1)) % 2 ^ b.bits = v.getD slot 0 := by
  induction k with
  | zero => exact absurd hs (Nat.not_lt_zero slot)
  | succ k ih =>
    obtain ⟨q, hq⟩ := two_pow_dvd_packFirst v (Nat.le_of_succ_le hk)
    rw [packFirst_succ]
    rcases Nat.lt_succ_iff_lt_or_eq.mp hs with hlt | rfl
    · have hbelow := shiftLeft_slot_lt hk (hv k)
      obtain ⟨d, hd⟩ : ∃ d, 8 - b.bits * (slot + 1) = 8 - b.bits * k + d :=
        Nat.exists_eq_add_of_le (Nat.sub_le_sub_left (Nat.mul_le_mul_left _ hlt) 8)
      have hearlier := ih hlt (by omega)
      rw [hd, pow_add, ← Nat.div_div_eq_div_mul, hq] at hearlier ⊢
      rwa [Nat.mul_add_div (Nat.two_pow_pos _), Nat.div_eq_of_lt hbelow, Nat.add_zero,
        ← Nat.mul_div_cancel_left q (Nat.two_pow_pos (8 - b.bits * k))]
    · rw [hq, low_bits_succ hk, pow_add, Nat.shiftLeft_eq, Nat.mul_comm (v.getD slot 0), Nat.mul_assoc,
        ← Nat.mul_add, Nat.mul_div_cancel_left _ (Nat.two_pow_pos _), Nat.mul_add_mod, Nat.mod_eq_of_lt (hv slot)]

theorem foldl_packOr {k : Nat} (hk : k ≤ b.epb) :
    (List.range k).foldl (fun pk c => packOr b pk c (v.getD c 0)) 0#8 = BitVec.ofNat 8 (packFirst b v k) := by
  induction k with
  | zero => rfl
  | succ k ih =>
    rw [List.range_succ, List.foldl_append, ih (by omega), packFirst_succ]
    exact packOr_of_empty hk (hv k) (two_pow_dvd_packFirst v (by omega))

end InRange

/-! ## Whole bytes -/

/-- No bit is below the last slot. -/
theorem low_bits_epb (b : Width) : 8 - b.bits * b.epb = 0 := by rw [bits_mul_epb]

theorem packByte_unpack (b : Width) (B : Byte) :
    packByte b ((List.range b.epb).map (fun i => byteElem b i B)) = B.toNat := by
  rw [packByte_eq_packFirst, packFirst_unpack B le_rfl, low_bits_epb, pow_zero, Nat.div_one, Nat.mul_one]

theorem packByte_lt {b : Width} {v : List Nat} (hv : ∀ slot, v.getD slot 0 < 2 ^ b.bits) : packByte b v < 256 :=
  (Nat.lt_add_of_pos_right (Nat.two_pow_pos _)).trans_le (packFirst_add_le hv le_rfl)

theorem byteElem_packByte {b : Width} {v : List Nat} (hv : ∀ slot, v.getD slot 0 < 2 ^ b.bits) {slot : Nat}
    (hs : slot < b.epb) : byteElem b slot (BitVec.ofNat 8 (packByte b v)) = v.getD slot 0 := by
  rw [byteElem_eq, BitVec.toNat_ofNat, Nat.mod_eq_of_lt (packByte_lt hv)]
  exact packFirst_slot hv hs le_rfl

/-- Unpacking a packed byte gives the element vector back. -/
theorem unpack_packByte {b : Width} {v : List Nat} (hlen : v.length = b.epb)
    (hv : ∀ slot, v.getD slot 0 < 2 ^ b.bits) :
    (List.range b.epb).map (fun i => byteElem b i (BitVec.ofNat 8 (packByte b v))) = v := by
  refine List.ext_getElem (by simp [hlen]) fun i hi hi' => ?_
  rw [List.getElem_map, List.getElem_range, byteElem_packByte hv (hlen ▸ hi'), List.getD_eq_getElem v 0 hi']

end Sys2Proof.Machine

open Sys2Proof Sys2Proof.Machine

/-- Settles O20: the first slots of a packed byte are a sum that division takes apart again, and that the repacker's ORs
add up to, since each goes into an empty slot; each law is an induction on how many slots are filled. -/
theorem packAndUnpackAreInverse : Obligations.PackAndUnpackAreInverse := by
  refine ⟨packByte_unpack, fun b v hlen hrange => ?_⟩
  have hv : ∀ slot, v.getD slot 0 < 2 ^ b.bits := fun slot => by
    rcases lt_or_ge slot v.length with hs | hs
    · rw [List.getD_eq_getElem v 0 hs]
      exact hrange _ (List.getElem_mem hs)
    · rw [List.getD_eq_default v 0 hs]
      exact Nat.two_pow_pos _
  exact ⟨packByte_lt hv, unpack_packByte hlen hv, foldl_packOr hv le_rfl⟩
end

section
/-! SUPPORT. What the block's turn writes (20_memory R76, 44_requant_pack R281): of the micro-steps only DOT2 and DOT1
write, and each byte they emit is that of an output position and channel of the call, so it lies in region OUT. -/

namespace Sys2Proof.Machine

/-! ## The block's turn -/

/-- However the block's turn comes about, the step is the turn with the rest pending. -/
theorem step_of_turnLeaves {s : State} {rest : List HostOp} (h : TurnLeaves s rest) :
    step s = blockStep { s with pending := rest } := by
  rcases h with ⟨hp, rfl⟩ | hp | ⟨hb, rfl, ops, hp⟩
  · rw [step_of_pending_nil hp, ← hp]
  · simp only [step, fetch, hp]
  · rw [step_poll hp, hostPoll, if_pos hb]

/-! ## Where PACK writes -/

theorem span_has_iff (q : Span) (a : Nat) : q.has a = true ↔ q.base ≤ a ∧ a < q.base + q.size := by
  simp [Span.has]

/-- Region OUT holds one byte for each `epb` levels. -/
theorem outSpan_size (t : Tag) (r : Regs) : (outSpan t r).size = r.n * r.co / t.ob.epb := by
  show r.n * r.co * t.ob.bits / 8 = _
  rw [← bits_mul_epb t.ob, Nat.mul_comm _ t.ob.bits, Nat.mul_div_mul_left _ _ (by cases t.ob <;> decide)]

theorem premiseH3_span {t : Tag} {r : Regs} {q : Span} (h : premiseH3 t r = true) (hq : q ∈ callSpans t r) :
    q.base + q.size ≤ Config.addrSpace := by
  simpa using List.all_eq_true.mp h q hq

/-- The byte PACK emits for an output position and channel of the call is a byte of region OUT
(44_requant_pack R281). -/
theorem outSpan_has_packAddr {t : Tag} {r : Regs} {pos c : Nat} (hsize : sizeOk t r = true)
    (hspan : premiseH3 t r = true) (hpos : pos < r.n) (hc : c < r.co) :
    (outSpan t r).has (packAddr t r pos c) = true := by
  obtain ⟨-, -, hco, -⟩ := (sizeOk_iff t r).mp hsize
  have hlevel : pos * r.co + c < r.n * r.co :=
    calc pos * r.co + c < (pos + 1) * r.co := by rw [Nat.succ_mul]; omega
      _ ≤ r.n * r.co := Nat.mul_le_mul_right _ hpos
  have hbyte : (pos * r.co + c) / t.ob.epb < (outSpan t r).size := by
    rw [outSpan_size]
    exact Nat.div_lt_div_of_lt_of_dvd ((Nat.dvd_of_mod_eq_zero hco).mul_left _) hlevel
  have htop : r.outBase.toNat + (outSpan t r).size ≤ Config.addrSpace :=
    premiseH3_span (q := outSpan t r) hspan (by simp [callSpans])
  rw [packAddr_eq (by omega), span_has_iff]
  exact ⟨Nat.le_add_right _ _, Nat.add_lt_add_left hbyte _⟩

theorem read_pack0 {t : Tag} {pos c a : Nat} {s : State} (acc : Word) (h : a ≠ packAddr t s.regs pos c) :
    (pack0 t pos c acc s).mem.read a = s.mem.read a := packByteStep_read h

theorem read_pack1 {t : Tag} {pos c a : Nat} {s : State} (acc : Word) (h : a ≠ packAddr t s.regs pos c) :
    (pack1 t pos c acc s).mem.read a = s.mem.read a := packByteStep_read h

/-! ## What a micro-step writes -/

theorem read_dot2Step {t : Tag} {s : State} {a : Nat}
    (h : ∀ pos c, pos = s.seq.pos - 2 ∨ pos = s.seq.pos - 1 → c = s.seq.chi ∨ c = s.seq.chi + 1 →
      a ≠ packAddr t s.regs pos c) : (dot2Step t s).mem.read a = s.mem.read a := by
  refine (read_pack1 _ ?_).trans ((read_pack0 _ ?_).trans ((read_pack1 _ ?_).trans (read_pack0 _ ?_)))
  · exact h _ _ (.inr rfl) (.inr rfl)
  · exact h _ _ (.inl rfl) (.inr rfl)
  · exact h _ _ (.inr rfl) (.inl rfl)
  · exact h _ _ (.inl rfl) (.inl rfl)

theorem read_dot1Step {t : Tag} {s : State} {a : Nat} (h : a ≠ packAddr t s.regs (s.seq.pos - 1) s.seq.chi) :
    (dot1Step t s).mem.read a = s.mem.read a := read_pack0 _ h

/-- A micro-step of a legal call writes no byte outside region OUT (20_memory R76). -/
theorem read_microStep_outside {t : Tag} {s : State} {a : Nat} (hcall : CallOk t s)
    (ha : (outSpan t s.regs).has a = false) : (microStep t s).mem.read a = s.mem.read a := by
  obtain ⟨⟨-, hsize, hin, -⟩, hready⟩ := hcall
  obtain ⟨-, -, hspan, -⟩ := (inContract_iff t s.regs s.mem).mp hin
  obtain ⟨-, -, -, heven⟩ := (sizeOk_iff t s.regs).mp hsize
  have hout : ∀ pos c, pos < s.regs.n → c < s.regs.co → a ≠ packAddr t s.regs pos c := by
    rintro pos c hpos hc rfl
    exact Bool.false_ne_true (ha.symm.trans (outSpan_has_packAddr hsize hspan hpos hc))
  cases hphase : s.seq.phase with
  | gather => simp only [microStep, hphase, gather_mem]
  | dot2 =>
    simp only [SeqReady, hphase] at hready
    obtain ⟨-, htwo, hpos, -, hchi, hchi2, -⟩ := hready
    simp only [microStep, hphase]
    exact read_dot2Step fun pos c hp hc => hout pos c (by omega) (by omega)
  | dot1 =>
    simp only [SeqReady, hphase] at hready
    obtain ⟨-, hpos, hodd, hchi, -⟩ := hready
    simp only [microStep, hphase]
    exact read_dot1Step (hout _ _ (by omega) hchi)
  | finish => simp only [microStep, hphase, finish_mem]

/-- No byte of COLBUF is a byte of OUT (40_host_commands R126, H4). -/
theorem outSpan_has_of_colbuf {t : Tag} {r : Regs} {a : Nat} (h : premiseH4 t r = true)
    (ha : (colbufSpan r).has a = true) : (outSpan t r).has a = false := by
  simp only [premiseH4, Bool.and_eq_true] at h
  obtain ⟨-, hdisj⟩ := h
  exact Bool.eq_false_iff.mpr fun hout => Bool.false_ne_true ((disjoint_has hdisj hout).symm.trans ha)

end Sys2Proof.Machine

open Sys2Proof Sys2Proof.Machine

/-- Settles O54: the step is a micro-step of a legal call, which writes in region OUT only, and COLBUF is disjoint from
OUT. -/
theorem blockWritesOnlyRegionOut : Obligations.BlockWritesOnlyRegionOut := by
  intro s u t rest _ hb hcall hturn hstep
  have hcall' : CallOk t { s with pending := rest } := hcall
  obtain ⟨⟨hmode, -, hin, -⟩, -⟩ := hcall
  obtain ⟨-, -, -, hdisj, -⟩ := (inContract_iff t s.regs s.mem).mp hin
  rw [step_of_turnLeaves hturn, blockStep_busy (s := { s with pending := rest }) hb hmode] at hstep
  cases hstep
  exact ⟨fun a ha => read_microStep_outside hcall' ha.1,
    fun a ha => read_microStep_outside hcall' (outSpan_has_of_colbuf hdisj ha)⟩
end

section
/-! SUPPORT. The two instruction formats (30_encoding R91 to R98). A MODE word is the number its five fields make and a
CMD word is its OP, so decode and encode are inverse as soon as it is said, field by field, which row a word names and
which codes a row stands for. -/

namespace Sys2Proof

/-! ## Codes of widths and policies (30_encoding R93, R94) -/

/-- The code that names a width: `Width.ofCode` reads it back. -/
def Width.code (b : Width) : BitVec 2 :=
  match b with
  | .b2 => 0#2
  | .b4 => 1#2
  | .b8 => 2#2

/-- The FOLD bit of a policy: `FoldPolicy.ofBit` reads it back. -/
def FoldPolicy.bit (f : FoldPolicy) : Bool :=
  match f with
  | .thr => false
  | .icn => true

@[simp] theorem ofCode_code (b : Width) : Width.ofCode b.code = some b := by cases b <;> rfl

@[simp] theorem ofCode_three : Width.ofCode 3#2 = none := rfl

theorem ne_three_of_ofCode {c : BitVec 2} {b : Width} (h : Width.ofCode c = some b) : c ≠ 3#2 := by
  rintro rfl
  cases h

theorem exists_code_of_ne_three {c : BitVec 2} (h : c ≠ 3#2) : ∃ b : Width, c = b.code := by
  have hfour : ∀ c : BitVec 2, c = Width.b2.code ∨ c = Width.b4.code ∨ c = Width.b8.code ∨ c = 3#2 := by decide
  rcases hfour c with hc | hc | hc | hc
  · exact ⟨_, hc⟩
  · exact ⟨_, hc⟩
  · exact ⟨_, hc⟩
  · exact absurd hc h

@[simp] theorem code_ne_three (b : Width) : b.code ≠ 3#2 := ne_three_of_ofCode (ofCode_code b)

theorem code_eq_two_iff (b : Width) : b.code = 2#2 ↔ b = .b8 := by cases b <;> decide

@[simp] theorem ofBit_bit (f : FoldPolicy) : FoldPolicy.ofBit f.bit = f := by cases f <;> rfl

@[simp] theorem bit_ofBit (b : Bool) : (FoldPolicy.ofBit b).bit = b := by cases b <;> rfl

theorem ofBit_eq_thr_iff (b : Bool) : FoldPolicy.ofBit b = .thr ↔ b = false := by cases b <;> decide

/-! ## Words as numbers -/

theorem toNat_append_eq_add {n m : Nat} (x : BitVec n) (y : BitVec m) :
    (x ++ y).toNat = x.toNat * 2 ^ m + y.toNat := by
  rw [BitVec.toNat_append, ← Nat.shiftLeft_add_eq_or_of_lt y.isLt, Nat.shiftLeft_eq]

theorem toNat_field {w : Nat} (x : BitVec w) (start len : Nat) :
    (x.extractLsb' start len).toNat = x.toNat / 2 ^ start % 2 ^ len := by
  rw [BitVec.extractLsb'_toNat, Nat.shiftRight_eq_div_pow]

theorem toNat_getLsbD {w : Nat} (x : BitVec w) (i : Nat) : (x.getLsbD i).toNat = x.toNat / 2 ^ i % 2 :=
  Nat.toNat_testBit _ _

theorem bool_toNat_injective : Function.Injective Bool.toNat := by decide

theorem modeOpcode_toNat (fold : Bool) (ob wb ib : BitVec 2) :
    (modeOpcode fold ob wb ib).toNat = fold.toNat * 64 + ob.toNat * 16 + wb.toNat * 4 + ib.toNat := by
  rw [modeOpcode, toNat_append_eq_add, toNat_append_eq_add, toNat_append_eq_add, BitVec.toNat_ofBool]
  omega

theorem modeWord_toNat (z : Bool) (opcode : BitVec 7) : (modeWord z opcode).toNat = z.toNat * 128 + opcode.toNat := by
  rw [modeWord, toNat_append_eq_add, toNat_append_eq_add, BitVec.toNat_ofBool]
  simp

theorem modeFields_toNat (w : Word) :
    (modeIb w).toNat = w.toNat % 4 ∧ (modeWb w).toNat = w.toNat / 4 % 4 ∧ (modeOb w).toNat = w.toNat / 16 % 4 ∧
    (modeFold w).toNat = w.toNat / 64 % 2 ∧ (modeZwm w).toNat = w.toNat / 128 % 2 := by
  refine ⟨?_, toNat_field w 2 2, toNat_field w 4 2, toNat_getLsbD w 6, toNat_getLsbD w 7⟩
  rw [modeIb, toNat_field, Nat.pow_zero, Nat.div_one]
  rfl

/-- The stored bits of a MODE word are its five fields (30_encoding R91). -/
theorem modeWord_fields (w : Word) :
    modeWord (modeZwm w) (modeOpcode (modeFold w) (modeOb w) (modeWb w) (modeIb w)) = w &&& 0x000000FF#32 := by
  obtain ⟨hib, hwb, hob, hfold, hzwm⟩ := modeFields_toNat w
  have hmask : (w &&& 0x000000FF#32).toNat = w.toNat % 256 := by
    rw [BitVec.toNat_and]
    exact Nat.and_two_pow_sub_one_eq_mod _ 8
  apply BitVec.eq_of_toNat_eq
  rw [modeWord_toNat, modeOpcode_toNat, hmask]
  omega

/-- A MODE word built from fields has these fields. -/
theorem fields_modeWord (z fold : Bool) (ob wb ib : BitVec 2) {w : Word}
    (hw : w = modeWord z (modeOpcode fold ob wb ib)) :
    modeIb w = ib ∧ modeWb w = wb ∧ modeOb w = ob ∧ modeFold w = fold ∧ modeZwm w = z := by
  obtain ⟨hib, hwb, hob, hfold, hzwm⟩ := modeFields_toNat w
  rw [hw, modeWord_toNat, modeOpcode_toNat, ← hw] at hib hwb hob hfold hzwm
  have hz := z.toNat_lt
  have hf := fold.toNat_lt
  exact ⟨BitVec.eq_of_toNat_eq (by omega), BitVec.eq_of_toNat_eq (by omega), BitVec.eq_of_toNat_eq (by omega),
    bool_toNat_injective (by omega), bool_toNat_injective (by omega)⟩

/-- The bits a CMD word is decoded by are its OP (30_encoding R91). -/
theorem cmdWord_cmdOp (w : Word) : cmdWord (cmdOp w) = w &&& 0x0000000F#32 := by
  have hmask : (w &&& 0x0000000F#32).toNat = w.toNat % 16 := by
    rw [BitVec.toNat_and]
    exact Nat.and_two_pow_sub_one_eq_mod _ 4
  apply BitVec.eq_of_toNat_eq
  rw [cmdWord, toNat_append_eq_add, cmdOp, toNat_field, hmask]
  simp

/-- The bytes of a word make the word again. -/
theorem wordOfBytes_bytes (w : Word) :
    wordOfBytes (w.extractLsb' 0 8) (w.extractLsb' 8 8) (w.extractLsb' 16 8) (w.extractLsb' 24 8) = w := by
  have hlt := w.isLt
  apply BitVec.eq_of_toNat_eq
  simp only [wordOfBytes, toNat_append_eq_add, toNat_field]
  omega

/-! ## The row a MODE word names (30_encoding R92, R96, R97) -/

section
variable {w : Word} {ob wb ib : Width}

theorem decode_mode_ib3 (hi : modeIb w = 3#2) :
    decode .mode w = .rsvdWidthIb3 (modeZwm w) (modeFold w) (modeOb w) (modeWb w) := by
  simp only [decode, decodeModeWord, hi, ofCode_three]

theorem decode_mode_wb3 (hi : modeIb w ≠ 3#2) (hw : modeWb w = 3#2) :
    decode .mode w = .rsvdWidthWb3 (modeZwm w) (modeFold w) (modeOb w) (modeIb w) := by
  obtain ⟨ib, hi⟩ := exists_code_of_ne_three hi
  simp only [decode, decodeModeWord, hi, hw, ofCode_three, ofCode_code]

theorem decode_mode_ob3 (hi : modeIb w ≠ 3#2) (hw : modeWb w ≠ 3#2) (ho : modeOb w = 3#2) :
    decode .mode w = .rsvdWidthOb3 (modeZwm w) (modeFold w) (modeWb w) (modeIb w) := by
  obtain ⟨ib, hi⟩ := exists_code_of_ne_three hi
  obtain ⟨wb, hw⟩ := exists_code_of_ne_three hw
  simp only [decode, decodeModeWord, hi, hw, ho, ofCode_three, ofCode_code]

theorem decode_mode_row (hi : modeIb w = ib.code) (hw : modeWb w = wb.code) (ho : modeOb w = ob.code) :
    decode .mode w = modeRow (FoldPolicy.ofBit (modeFold w)) ob wb ib (modeZwm w) := by
  simp only [decode, decodeModeWord, hi, hw, ho, ofCode_code]

/-- A width code 3, in whichever field, is reserved. -/
theorem modeDecode_width (h : modeIb w = 3#2 ∨ modeWb w = 3#2 ∨ modeOb w = 3#2) :
    modeDecode w = .reserved .widthCode := by
  unfold modeDecode
  split
  next hi hw ho => simp [ne_three_of_ofCode hi, ne_three_of_ofCode hw, ne_three_of_ofCode ho] at h
  next => rfl

theorem modeDecode_row (hi : modeIb w = ib.code) (hw : modeWb w = wb.code) (ho : modeOb w = ob.code) :
    modeDecode w =
      if FoldPolicy.ofBit (modeFold w) = .thr ∧ ob = .b8 then .reserved .thrOut8
      else .legal ⟨ib, wb, ob, FoldPolicy.ofBit (modeFold w), modeZwm w⟩ := by
  simp only [modeDecode, hi, hw, ho, ofCode_code]

/-- A MODE word without a width code 3 has three widths. -/
theorem exists_codes (h : ¬ (modeIb w = 3#2 ∨ modeWb w = 3#2 ∨ modeOb w = 3#2)) :
    ∃ ob wb ib : Width, modeIb w = ib.code ∧ modeWb w = wb.code ∧ modeOb w = ob.code := by
  simp only [not_or] at h
  obtain ⟨hi, hw, ho⟩ := h
  obtain ⟨ib, hi⟩ := exists_code_of_ne_three hi
  obtain ⟨wb, hw⟩ := exists_code_of_ne_three hw
  obtain ⟨ob, ho⟩ := exists_code_of_ne_three ho
  exact ⟨ob, wb, ib, hi, hw, ho⟩

/-- The four ways the width codes of a MODE word can stand, in the order they are tested (log 16). -/
theorem modeCodes_cases (w : Word) :
    modeIb w = 3#2 ∨ (modeIb w ≠ 3#2 ∧ modeWb w = 3#2) ∨ (modeIb w ≠ 3#2 ∧ modeWb w ≠ 3#2 ∧ modeOb w = 3#2) ∨
    ∃ ob wb ib : Width, modeIb w = ib.code ∧ modeWb w = wb.code ∧ modeOb w = ob.code := by
  by_cases hi : modeIb w = 3#2
  · exact .inl hi
  by_cases hw : modeWb w = 3#2
  · exact .inr (.inl ⟨hi, hw⟩)
  by_cases ho : modeOb w = 3#2
  · exact .inr (.inr (.inl ⟨hi, hw, ho⟩))
  exact .inr (.inr (.inr (exists_codes (by simp [hi, hw, ho]))))

end

/-! ## The codes a row stands for -/

theorem encode_modeRow (f : FoldPolicy) (ob wb ib : Width) (z : Bool) :
    encode (modeRow f ob wb ib z) = (.mode, modeWord z (modeOpcode f.bit ob.code wb.code ib.code)) := by
  unfold modeRow
  split <;> rfl

theorem wf_modeRow (f : FoldPolicy) (ob wb ib : Width) (z : Bool) : (modeRow f ob wb ib z).wf = true := by
  unfold modeRow
  split <;> rfl

theorem wf_rsvdWidthWb3_iff (z fold : Bool) (ob ib : BitVec 2) :
    (Instr.rsvdWidthWb3 z fold ob ib).wf = true ↔ ib ≠ 3#2 := bne_iff_ne

theorem wf_rsvdWidthOb3_iff (z fold : Bool) (wb ib : BitVec 2) :
    (Instr.rsvdWidthOb3 z fold wb ib).wf = true ↔ wb ≠ 3#2 ∧ ib ≠ 3#2 := by
  simp [Instr.wf]

/-- A row is a convolution with its own codes, except THR with 8-bit output (30_encoding R97 (b)). -/
theorem tag?_modeRow (f : FoldPolicy) (ob wb ib : Width) (z : Bool) :
    (modeRow f ob wb ib z).tag? = if f = .thr ∧ ob = .b8 then none else some ⟨ib, wb, ob, f, z⟩ := by
  unfold modeRow
  split <;> rfl

/-- A convolution is the row of its constants. -/
theorem modeRow_of_tag? {i : Instr} {t : Tag} (h : i.tag? = some t) : modeRow t.fold t.ob t.wb t.ib t.zwm = i := by
  cases i <;> cases h <;> rfl

theorem encode_decode_cmd (w : Word) : encode (decode .cmd w) = (.cmd, cmdWord (cmdOp w)) := by
  rw [decode, decodeCmdWord]
  generalize cmdOp w = op
  revert op
  decide

theorem wf_decode_cmd (w : Word) : (decode .cmd w).wf = true := by
  rw [decode, decodeCmdWord]
  split <;> rfl

/-! ## Decode of encode, row by row -/

theorem decode_encode_modeRow (f : FoldPolicy) (ob wb ib : Width) (z : Bool) :
    decode (encode (modeRow f ob wb ib z)).1 (encode (modeRow f ob wb ib z)).2 = modeRow f ob wb ib z := by
  obtain ⟨hi, hw, ho, hf, hz⟩ := fields_modeWord z f.bit ob.code wb.code ib.code rfl
  rw [encode_modeRow, decode_mode_row hi hw ho, hf, hz, ofBit_bit]

theorem decode_encode_conv {i : Instr} {t : Tag} (h : i.tag? = some t) : decode (encode i).1 (encode i).2 = i := by
  rw [← modeRow_of_tag? h]
  exact decode_encode_modeRow _ _ _ _ _

theorem decode_encode_ib3 (z fold : Bool) (ob wb : BitVec 2) :
    decode .mode (modeWord z (modeOpcode fold ob wb 3#2)) = .rsvdWidthIb3 z fold ob wb := by
  obtain ⟨hi, hw, ho, hf, hz⟩ := fields_modeWord z fold ob wb 3#2 rfl
  rw [decode_mode_ib3 hi, hw, ho, hf, hz]

theorem decode_encode_wb3 (z fold : Bool) (ob : BitVec 2) {ib : BitVec 2} (hib : ib ≠ 3#2) :
    decode .mode (modeWord z (modeOpcode fold ob 3#2 ib)) = .rsvdWidthWb3 z fold ob ib := by
  obtain ⟨hi, hw, ho, hf, hz⟩ := fields_modeWord z fold ob 3#2 ib rfl
  rw [decode_mode_wb3 (by rwa [hi]) hw, hi, ho, hf, hz]

theorem decode_encode_ob3 (z fold : Bool) {wb ib : BitVec 2} (hwb : wb ≠ 3#2) (hib : ib ≠ 3#2) :
    decode .mode (modeWord z (modeOpcode fold 3#2 wb ib)) = .rsvdWidthOb3 z fold wb ib := by
  obtain ⟨hi, hw, ho, hf, hz⟩ := fields_modeWord z fold 3#2 wb ib rfl
  rw [decode_mode_ob3 (by rwa [hi]) (by rwa [hw]) ho, hi, hw, hf, hz]

/-! ## The bare table word (log 5) -/

theorem decodeTableWord_eq (nbits w : Nat) :
    decodeTableWord nbits w = some (decode (tablePort (tableWord nbits w)) (tableWord nbits w)) := by
  rw [decodeTableWord, bytesOfWord, decodeBytes, wordOfBytes_bytes]

end Sys2Proof

namespace Sys2Proof.Machine

/-! ## Delivering a word (30_encoding R103) -/

/-- A CALL writes MODE and delivers the MODE word. -/
theorem step_call {s : State} {w : Word} {rest : List HostOp} (hp : s.pending = .call w :: rest) :
    step s = exec (decode .mode w) (writeReg { s with pending := .poll :: rest } 0x08 w) := by
  simp only [step, fetch, hp]

end Sys2Proof.Machine

open Sys2Proof Sys2Proof.Machine

/-- Settles O1: a convolution is the row of its constants, a reserved row has the code of its own row and no code of an
earlier one, and a command is its OP. -/
theorem decodeOfEncodeIsTheInstruction : Obligations.DecodeOfEncodeIsTheInstruction := by
  intro i hwf
  cases i with
  | rsvdWidthIb3 z fold ob wb => exact decode_encode_ib3 z fold ob wb
  | rsvdWidthWb3 z fold ob ib => exact decode_encode_wb3 z fold ob ((wf_rsvdWidthWb3_iff _ _ _ _).mp hwf)
  | rsvdWidthOb3 z fold wb ib =>
    obtain ⟨hwb, hib⟩ := (wf_rsvdWidthOb3_iff _ _ _ _).mp hwf
    exact decode_encode_ob3 z fold hwb hib
  | rsvdThrO8x20 z => exact decode_encode_modeRow .thr .b8 .b2 .b2 z
  | rsvdThrO8x21 z => exact decode_encode_modeRow .thr .b8 .b2 .b4 z
  | rsvdThrO8x22 z => exact decode_encode_modeRow .thr .b8 .b2 .b8 z
  | rsvdThrO8x24 z => exact decode_encode_modeRow .thr .b8 .b4 .b2 z
  | rsvdThrO8x25 z => exact decode_encode_modeRow .thr .b8 .b4 .b4 z
  | rsvdThrO8x26 z => exact decode_encode_modeRow .thr .b8 .b4 .b8 z
  | rsvdThrO8x28 z => exact decode_encode_modeRow .thr .b8 .b8 .b2 z
  | rsvdThrO8x29 z => exact decode_encode_modeRow .thr .b8 .b8 .b4 z
  | rsvdThrO8x2A z => exact decode_encode_modeRow .thr .b8 .b8 .b8 z
  | start | cmdNop0 | cmdRsvd2 | cmdRsvd3 | cmdRsvd4 | cmdRsvd5 | cmdRsvd6 | cmdRsvd7 | cmdRsvd8 | cmdRsvd9
  | cmdRsvd10 | cmdRsvd11 | cmdRsvd12 | cmdRsvd13 | cmdRsvd14 | cmdRsvd15 => rfl
  | _ => exact decode_encode_conv rfl

/-- Settles O2: in each of the four ways the width codes can stand, the row's encoding is the word's own five fields. -/
theorem modeWordsKeepEveryStoredBit : Obligations.ModeWordsKeepEveryStoredBit := by
  intro w
  rw [← modeWord_fields w]
  rcases modeCodes_cases w with hi | ⟨hi, hw⟩ | ⟨hi, hw, ho⟩ | ⟨ob, wb, ib, hi, hw, ho⟩
  · rw [decode_mode_ib3 hi]
    exact ⟨rfl, by rw [hi]; rfl⟩
  · rw [decode_mode_wb3 hi hw]
    exact ⟨(wf_rsvdWidthWb3_iff _ _ _ _).mpr hi, by rw [hw]; rfl⟩
  · rw [decode_mode_ob3 hi hw ho]
    exact ⟨(wf_rsvdWidthOb3_iff _ _ _ _).mpr ⟨hw, hi⟩, by rw [ho]; rfl⟩
  · rw [decode_mode_row hi hw ho]
    exact ⟨wf_modeRow _ _ _ _ _, by rw [encode_modeRow, bit_ofBit, hi, hw, ho]⟩

/-- Settles O3: the row of a CMD word is that of its OP, and OP is the word's bits 3:0. -/
theorem commandWordsReadOpOnly : Obligations.CommandWordsReadOpOnly := fun w =>
  ⟨wf_decode_cmd w, by rw [encode_decode_cmd, cmdWord_cmdOp]⟩

/-- Settles O5: with a width code 3 neither side has a tag, and on three legal codes both make the same exception. -/
theorem opcodeMapAgreesWithModeDecode : Obligations.OpcodeMapAgreesWithModeDecode := by
  intro w t
  rcases modeCodes_cases w with hi | ⟨hi, hw⟩ | ⟨hi, hw, ho⟩ | ⟨ob, wb, ib, hi, hw, ho⟩
  · rw [modeDecode_width (.inl hi), decode_mode_ib3 hi]
    exact ⟨nofun, nofun⟩
  · rw [modeDecode_width (.inr (.inl hw)), decode_mode_wb3 hi hw]
    exact ⟨nofun, nofun⟩
  · rw [modeDecode_width (.inr (.inr ho)), decode_mode_ob3 hi hw ho]
    exact ⟨nofun, nofun⟩
  · rw [modeDecode_row hi hw ho, decode_mode_row hi hw ho, tag?_modeRow]
    split <;> simp

/-- Settles O4: a width code 3 decides first, and among three legal codes THR with 8-bit output. -/
theorem modeDecodeFollowsTheOrder : Obligations.ModeDecodeFollowsTheOrder := by
  intro w
  by_cases h3 : modeIb w = 3#2 ∨ modeWb w = 3#2 ∨ modeOb w = 3#2
  · rw [modeDecode_width h3]
    refine ⟨by simp [h3], ⟨nofun, ?_⟩, fun t => ⟨nofun, ?_⟩⟩
    · rintro ⟨hi, hw, -, ho⟩
      simp [hi, hw, ho] at h3
    · rintro ⟨hi, hw, ho, -⟩
      simp [ne_three_of_ofCode hi, ne_three_of_ofCode hw, ne_three_of_ofCode ho] at h3
  · obtain ⟨ob, wb, ib, hi, hw, ho⟩ := exists_codes h3
    rw [modeDecode_row hi hw ho]
    simp only [hi, hw, ho, ofCode_code, ← ofBit_eq_thr_iff, code_eq_two_iff, code_ne_three]
    by_cases hthr : FoldPolicy.ofBit (modeFold w) = .thr ∧ ob = .b8
    · rw [if_pos hthr]
      refine ⟨by simp, by simp [hthr], fun t => ⟨nofun, ?_⟩⟩
      rintro ⟨-, -, hob, hfold, -, hne⟩
      exact absurd ⟨hfold.trans hthr.1, (Option.some.inj hob).symm.trans hthr.2⟩ hne
    · rw [if_neg hthr]
      refine ⟨by simp, by simpa using hthr, ?_⟩
      rintro ⟨ib', wb', ob', f', z'⟩
      constructor
      · rintro ⟨⟩
        exact ⟨rfl, rfl, rfl, rfl, rfl, hthr⟩
      · rintro ⟨⟨⟩, ⟨⟩, ⟨⟩, ⟨⟩, ⟨⟩, -⟩
        rfl

/-- Settles O7: the words evaluate. -/
theorem sampleWordsDecodeRight : Obligations.SampleWordsDecodeRight := ⟨rfl, rfl, rfl, rfl, rfl, rfl, rfl⟩

/-- Settles O8: a write to offset 0x00 and the block's turn have their lemmas, and a CALL is `fetch`'s own case. -/
theorem stepRunsTheDecodedInstruction : Obligations.StepRunsTheDecodedInstruction := fun _ _ _ =>
  ⟨step_wr_cmd, step_call, step_of_turnLeaves⟩

/-- Settles O9: the bytes of the table word make it again, and the port says which host operation delivers it. -/
theorem fetchWordRunsItsInstruction : Obligations.FetchWordRunsItsInstruction := by
  intro s nbits w
  refine ⟨_, decodeTableWord_eq nbits w, ?_⟩
  cases hport : tablePort (tableWord nbits w) with
  | cmd => exact step_wr_cmd (by rw [withFetchWord_pending, deliver, hport])
  | mode => exact step_call (by rw [withFetchWord_pending, deliver, hport])

/-- Settles O16: PAD stores the whole word and ZP its bits 23:0, and a field is a quotient's remainder. -/
theorem packedFieldsAreTheirBits : Obligations.PackedFieldsAreTheirBits := by
  intro r v
  have hv := v.isLt
  have hpad : (r.write 0x1C v).pad = v := rfl
  have hzp : (r.write 0x24 v).zp.toNat = v.toNat % 2 ^ 24 := BitVec.toNat_setWidth 24 v
  simp only [Regs.pt, Regs.pb, Regs.pl, Regs.pr, Regs.zIn, Regs.zW, Regs.zOut, toNat_field, hpad, hzp]
  omega
end

section
/-! SUPPORT. START and the commands (40_host_commands R121 to R127): the launch premises said over the bytes of the
regions of 20_memory R76, and the outcome each of them gives. -/

namespace Sys2Proof.Machine

/-! ## Spans and their bytes -/

/-- Two spans are disjoint when no address is in both; an empty span holds no address (log 22). -/
theorem disjoint_iff (q p : Span) : q.disjoint p = true ↔ ∀ a, ¬ (q.has a = true ∧ p.has a = true) := by
  constructor
  · rintro h a ⟨hq, hp⟩
    exact Bool.false_ne_true ((disjoint_has h hq).symm.trans hp)
  · intro h
    have hmax := h (max q.base p.base)
    simp only [span_has_iff] at hmax
    simp only [Span.disjoint, Bool.or_eq_true, beq_iff_eq, decide_eq_true_eq]
    omega

theorem backed_iff (q : Span) (holes : List Span) :
    q.backed holes = true ↔ ∀ a, q.has a = true → ∀ h ∈ holes, h.has a = false := by
  simp only [Span.backed, List.all_eq_true, disjoint_iff, not_and, Bool.not_eq_true]
  exact ⟨fun h a ha p hp => h p hp a ha, fun h p hp a ha => h a ha p hp⟩

/-- A forgotten byte reads as its draw. -/
theorem read_forgetSpan_same {m : Memory} {draw base size i : Nat} (hi : i < size) :
    (m.forgetSpan draw base size).read (wrapAddr (base + i)) = Config.freeByte draw (wrapAddr (base + i)) := by
  induction size with
  | zero => exact absurd hi (Nat.not_lt_zero i)
  | succ n ih =>
    rw [forgetSpan_succ]
    by_cases hlast : wrapAddr (base + i) = wrapAddr (base + n)
    · rw [hlast, read_forget_same]
    · have hne : i ≠ n := fun h => hlast (by rw [h])
      rw [read_forget_other _ _ hlast, ih (by omega)]

theorem read_forgetSpan_inside {m : Memory} {draw a : Nat} {q : Span} (hq : q.base + q.size ≤ Config.addrSpace)
    (ha : q.has a = true) : (m.forgetSpan draw q.base q.size).read a = Config.freeByte draw a := by
  obtain ⟨hlo, hhi⟩ := (span_has_iff q a).mp ha
  have haddr : wrapAddr (q.base + (a - q.base)) = a := by
    rw [Nat.add_sub_cancel' hlo]
    exact wrapAddr_of_lt (by omega)
  have hread := read_forgetSpan_same (m := m) (draw := draw) (base := q.base) (size := q.size) (i := a - q.base)
    (by omega)
  rwa [haddr] at hread

/-! ## The premises over the regions (40_host_commands R126) -/

/-- The read-only regions, with their sizes as 20_memory R76 lists them. -/
theorem readSpans_eq (t : Tag) (r : Regs) :
    readSpans t r =
      [⟨r.inBase.toNat, r.di * r.di * r.ci * t.ib.bits / 8⟩,
       ⟨r.wBase.toNat, r.co * (r.ci * r.k * r.k) * t.wb.bits / 8⟩,
       ⟨r.biasBase.toNat, 4 * r.co⟩,
       ⟨r.qaBase.toNat, if t.fold = .thr then 4 * r.co * (2 ^ t.ob.bits - 1) else 4 * r.co⟩,
       ⟨r.qbBase.toNat, if t.fold = .thr then 0 else r.co⟩,
       ⟨r.zwBase.toNat, if t.zwm = true then r.co else 0⟩] := by
  have hqa : qaSpan t r =
      ⟨r.qaBase.toNat, if t.fold = .thr then 4 * r.co * (2 ^ t.ob.bits - 1) else 4 * r.co⟩ := by
    cases hf : t.fold <;> simp [qaSpan, hf, thresholdCount]
  have hqb : qbSpan t r = ⟨r.qbBase.toNat, if t.fold = .thr then 0 else r.co⟩ := by
    cases hf : t.fold <;> simp [qbSpan, hf]
  rw [readSpans, hqa, hqb]
  rfl

/-- A property of all regions of a call, SCRB being empty, is one of OUT, COLBUF and the read-only regions. -/
theorem callSpans_all {p : Span → Bool} {t : Tag} {r : Regs} (hscrb : p (scrbSpan r) = true) :
    (callSpans t r).all p = true ↔ ∀ q ∈ outSpan t r :: colbufSpan r :: readSpans t r, p q = true := by
  simp only [callSpans, List.all_append, List.all_cons, List.all_nil, hscrb, Bool.and_true, Bool.and_eq_true,
    List.all_eq_true, List.forall_mem_cons]
  tauto

theorem premiseH3_iff (t : Tag) (r : Regs) :
    premiseH3 t r = true ↔
      ∀ q ∈ outSpan t r :: colbufSpan r :: readSpans t r, q.base + q.size ≤ 4294967296 := by
  have hscrb : decide ((scrbSpan r).base + (scrbSpan r).size ≤ Config.addrSpace) = true :=
    decide_eq_true r.scrbBase.isLt.le
  rw [premiseH3, callSpans_all hscrb]
  exact forall₂_congr fun _ _ => decide_eq_true_iff

theorem premiseH4_iff (t : Tag) (r : Regs) :
    premiseH4 t r = true ↔
      ∀ a, ¬ ((outSpan t r).has a = true ∧ (colbufSpan r).has a = true) ∧
        ∀ q ∈ readSpans t r, ¬ (q.has a = true ∧ ((outSpan t r).has a = true ∨ (colbufSpan r).has a = true)) := by
  simp only [premiseH4, Bool.and_eq_true, List.all_eq_true, disjoint_iff]
  constructor
  · rintro ⟨⟨hout, hcol⟩, hboth⟩ a
    exact ⟨hboth a, fun q hq ⟨ha, hw⟩ => hw.elim (fun h => hout q hq a ⟨ha, h⟩) (fun h => hcol q hq a ⟨ha, h⟩)⟩
  · intro h
    exact ⟨⟨fun q hq a ⟨ha, hw⟩ => (h a).2 q hq ⟨ha, .inl hw⟩, fun q hq a ⟨ha, hw⟩ => (h a).2 q hq ⟨ha, .inr hw⟩⟩,
      fun a => (h a).1⟩

theorem premiseH5_iff (t : Tag) (r : Regs) (holes : List Span) :
    premiseH5 t r holes = true ↔
      ∀ q ∈ outSpan t r :: colbufSpan r :: readSpans t r, ∀ a, q.has a = true → ∀ h ∈ holes, h.has a = false := by
  have hscrb : (scrbSpan r).backed holes = true := by simp [Span.backed, Span.disjoint, scrbSpan]
  rw [premiseH5, callSpans_all (p := fun q => q.backed holes) hscrb]
  simp only [backed_iff]

theorem premiseH6_iff (t : Tag) (r : Regs) (m : Memory) :
    premiseH6 t r m = true ↔ (t.fold = .icn → ∀ c, c < r.co → -31 ≤ shf r m c ∧ shf r m c ≤ 31) := by
  cases hf : t.fold <;> simp [premiseH6, hf, shiftInRange]

/-! ## What a launch answers -/

section Launch

variable {t : Tag} {s : State}

theorem launch_sizeMismatch (h : sizeOk t s.regs = false) : launch t s = .next (raise .sizeMismatch s) := by
  simp only [launch, h, if_true]

theorem launch_outOfContract (hsize : sizeOk t s.regs = true) (h : inContract t s.regs s.mem = false) :
    launch t s = .refused .outOfContract := by
  simp only [launch, hsize, h, Bool.true_eq_false, if_true, if_false]

theorem launch_unbacked (hsize : sizeOk t s.regs = true) (hin : inContract t s.regs s.mem = true)
    (h : premiseH5 t s.regs s.holes = false) : launch t s = .refused .unbackedRegion := by
  simp only [launch, hsize, hin, h, Bool.true_eq_false, if_true, if_false]

theorem launch_accepts (hsize : sizeOk t s.regs = true) (hin : inContract t s.regs s.mem = true)
    (hback : premiseH5 t s.regs s.holes = true) : launch t s = .next (accept t s) := by
  simp only [launch, hsize, hin, hback, Bool.true_eq_false, if_false]

theorem exec_start (s : State) : exec .start s = startCommand s := rfl

theorem exec_start_legal (ha : acceptsStart s.status = true) (hm : modeDecode s.regs.modeW = .legal t) :
    exec .start s = launch t s := (exec_start s).trans (startCommand_legal ha hm)

theorem exec_start_reserved {q : ReservedReason} (ha : acceptsStart s.status = true)
    (hm : modeDecode s.regs.modeW = .reserved q) : exec .start s = .next (raise .fault s) := by
  simp only [exec_start, startCommand, ha, hm, if_true]

/-- A refused launch refuses START and every convolution alike. -/
theorem exec_refused {q : Refusal} (ha : acceptsStart s.status = true) (hl : launch t s = .refused q) :
    (modeDecode s.regs.modeW = .legal t → exec .start s = .refused q) ∧
      ∀ i : Instr, i.tag? = some t → exec i s = .refused q := by
  refine ⟨fun hm => (exec_start_legal ha hm).trans hl, fun i hi => ?_⟩
  simp only [Laws.exec_conv hi, convCall, ha, hl, if_true]

theorem colbuf_mem_callSpans (t : Tag) (r : Regs) : colbufSpan r ∈ callSpans t r := by simp [callSpans]

end Launch

end Sys2Proof.Machine

open Sys2Proof Sys2Proof.Machine

/-- Settles O21: each of the fifteen is `exec`'s arm that answers its own state. -/
theorem reservedCommandsDoNothing : Obligations.ReservedCommandsDoNothing := by
  intro i s hi
  simp only [List.mem_cons, List.not_mem_nil, or_false] at hi
  rcases hi with rfl | rfl | rfl | rfl | rfl | rfl | rfl | rfl | rfl | rfl | rfl | rfl | rfl | rfl | rfl <;> rfl

/-- Settles O23: the decode of MODE comes before the size check, and each raises its own STATE. -/
theorem rejectedStartChangesOnlyState : Obligations.RejectedStartChangesOnlyState := by
  intro s hst
  have ha := (acceptsStart_iff s.status).mpr hst
  refine ⟨fun q hm => exec_start_reserved ha hm, fun t hm hcounts => ?_⟩
  have hsize : sizeOk t s.regs = false := Bool.eq_false_iff.mpr fun h => hcounts ((sizeOk_iff t s.regs).mp h)
  exact (exec_start_legal ha hm).trans (launch_sizeMismatch hsize)

/-- Settles O25: the answer is `accept`, whose only effect on memory is that it forgets region COLBUF. -/
theorem startIsAccepted : Obligations.StartIsAccepted := by
  intro s t hwf hst ⟨hm, hsize, hin, hback⟩
  obtain ⟨-, -, hspan, -⟩ := (inContract_iff t s.regs s.mem).mp hin
  have htop := premiseH3_span hspan (colbuf_mem_callSpans t s.regs)
  exact ⟨accept t s, (exec_start_legal ((acceptsStart_iff _).mpr hst) hm).trans (launch_accepts hsize hin hback), rfl,
    forgetSpan_wf _ _ _ hwf, fun a ha => read_forgetSpan_inside htop ha, fun a ha => read_forgetSpan_outside htop ha⟩

/-- Settles O26: the statement's two conditions are `inContract` and `premiseH5`, premise by premise, and `launch` asks
them in this order. -/
theorem outsideThePremisesIsRefused : Obligations.OutsideThePremisesIsRefused := by
  intro s t hst hsize r reads out colbuf inside backed
  have ha := (acceptsStart_iff s.status).mpr hst
  have hreads : readSpans t r = reads := readSpans_eq t r
  have hinside : inContract t r s.mem = true ↔ inside := by
    rw [inContract_iff, premiseH1_iff, premiseH2_iff, premiseH3_iff, premiseH4_iff, premiseH6_iff, hreads]
    exact Iff.rfl
  have hbacked : premiseH5 t r s.holes = true ↔ backed := by
    rw [premiseH5_iff, hreads]
    exact Iff.rfl
  refine ⟨fun hout => ?outside, fun hin hhole => ?unbacked, fun hin hback => ?accepted⟩
  case outside =>
    exact exec_refused ha (launch_outOfContract hsize (Bool.eq_false_iff.mpr (mt hinside.mp hout)))
  case unbacked =>
    exact exec_refused ha (launch_unbacked hsize (hinside.mpr hin) (Bool.eq_false_iff.mpr (mt hbacked.mp hhole)))
  case accepted =>
    have hlaunch : launch t s = .next (accept t s) := launch_accepts hsize (hinside.mpr hin) (hbacked.mpr hback)
    exact ⟨hinside.mpr hin, hbacked.mpr hback, fun hm => (exec_start_legal ha hm).trans hlaunch,
      fun i hi => ⟨_, (Laws.exec_conv hi s).trans (convCall_of_launch ha hlaunch)⟩⟩
end

section
/-! SUPPORT. The operands of a call (20_memory R66 to R73): each lies inside the read-only region that R76 gives it, so
two memories that agree on those regions hold the same operands, whatever OUT and COLBUF hold. -/

namespace Sys2Proof.Machine

/-- The two memories hold the same bytes in every region the block only reads. -/
def SameOperands (t : Tag) (r : Regs) (m m' : Memory) : Prop :=
  ∀ q ∈ readSpans t r, ∀ a, q.has a = true → m'.read a = m.read a

/-- A row-major index stays below the product. -/
theorem mul_add_lt_mul {a b n k : Nat} (ha : a < n) (hb : b < k) : a * k + b < n * k :=
  calc a * k + b < (a + 1) * k := by rw [Nat.succ_mul]; omega
    _ ≤ n * k := Nat.mul_le_mul_right _ ha

/-- A packed tensor takes one byte for each `epb` elements. -/
theorem packed_size (b : Width) (cnt : Nat) : cnt * b.bits / 8 = cnt / b.epb := by
  rw [← bits_mul_epb b, Nat.mul_comm cnt, Nat.mul_div_mul_left _ _ (by cases b <;> decide)]

/-- No byte of a read-only region is in a region the block writes (40_host_commands R126, H4). -/
theorem untouched_of_readSpan {t : Tag} {r : Regs} (hdisj : premiseH4 t r = true) {q : Span} (hq : q ∈ readSpans t r)
    {a : Nat} (ha : q.has a = true) : Untouched t r a := by
  obtain ⟨-, hread⟩ := (premiseH4_iff t r).mp hdisj a
  exact ⟨Bool.eq_false_iff.mpr fun h => hread q hq ⟨ha, .inl h⟩, Bool.eq_false_iff.mpr fun h => hread q hq ⟨ha, .inr h⟩⟩

theorem sameOperands_of_untouched {t : Tag} {r : Regs} {m m' : Memory} (hdisj : premiseH4 t r = true)
    (h : ∀ a, Untouched t r a → m'.read a = m.read a) : SameOperands t r m m' :=
  fun _ hq a ha => h a (untouched_of_readSpan hdisj hq ha)

theorem readSpan_mem_callSpans {t : Tag} {r : Regs} {q : Span} (hq : q ∈ readSpans t r) : q ∈ callSpans t r :=
  List.mem_append_left _ hq

section Agree

variable {t : Tag} {r : Regs} {m m' : Memory}

/-! ## Reads inside a region -/

theorem read_congr (hspan : premiseH3 t r = true) (hm : SameOperands t r m m') {q : Span} (hq : q ∈ readSpans t r)
    {i : Nat} (hi : i < q.size) : m'.read (wrapAddr (q.base + i)) = m.read (wrapAddr (q.base + i)) := by
  have htop := premiseH3_span hspan (readSpan_mem_callSpans hq)
  rw [wrapAddr_of_lt (by omega)]
  exact hm q hq _ ((span_has_iff _ _).mpr ⟨Nat.le_add_right _ _, Nat.add_lt_add_left hi _⟩)

theorem memRead_congr (hspan : premiseH3 t r = true) (hm : SameOperands t r m m') {q : Span} (hq : q ∈ readSpans t r)
    {off n : Nat} (hn : off + n ≤ q.size) : memRead m' (q.base + off) n = memRead m (q.base + off) n := by
  induction n generalizing off with
  | zero => rfl
  | succ k ih =>
    have hrest : memRead m' (q.base + off + 1) k = memRead m (q.base + off + 1) k := ih (off := off + 1) (by omega)
    have hbyte : m'.read (wrapAddr (q.base + off)) = m.read (wrapAddr (q.base + off)) :=
      read_congr hspan hm hq (by omega)
    rw [memRead_succ, memRead_succ, hrest, hbyte]

theorem packedElem_congr (hspan : premiseH3 t r = true) (hm : SameOperands t r m m') {q : Span}
    (hq : q ∈ readSpans t r) {b : Width} {cnt i : Nat} (hsz : q.size = cnt * b.bits / 8) (hdvd : b.epb ∣ cnt)
    (hi : i < cnt) : packedElem m' q.base b i = packedElem m q.base b i := by
  have hbyte : i / b.epb < q.size := by
    rw [hsz, packed_size]
    exact Nat.div_lt_div_of_lt_of_dvd hdvd hi
  rw [packedElem, packedElem, read_congr hspan hm hq hbyte]

/-! ## The tensors and descriptors -/

theorem toNat_lt_of_inBounds {iy ix : Int} (h : inBounds r iy ix = true) : iy.toNat < r.di ∧ ix.toNat < r.di := by
  simp only [inBounds, Bool.and_eq_true, decide_eq_true_eq] at h
  omega

section Operands

variable (hspan : premiseH3 t r = true) (hm : SameOperands t r m m')
include hspan hm

theorem inElem_congr (hsize : sizeOk t r = true) {y x c : Nat} (hy : y < r.di) (hx : x < r.di) (hc : c < r.ci) :
    inElem t r m' y x c = inElem t r m y x c := by
  obtain ⟨hci, -⟩ := (sizeOk_iff t r).mp hsize
  exact packedElem_congr hspan hm (q := inSpan t r) (by simp [readSpans]) rfl
    ((Nat.dvd_of_mod_eq_zero hci).mul_left _) (mul_add_lt_mul (mul_add_lt_mul hy hx) hc)

theorem weight_congr (hsize : sizeOk t r = true) {c j : Nat} (hc : c < r.co) (hj : j < r.len) :
    weight t r m' c j = weight t r m c j := by
  obtain ⟨-, hci, -⟩ := (sizeOk_iff t r).mp hsize
  exact packedElem_congr hspan hm (q := wSpan t r) (by simp [readSpans]) rfl
    ((((Nat.dvd_of_mod_eq_zero hci).mul_right _).mul_right _).mul_left _) (mul_add_lt_mul hc hj)

theorem bias_congr {c : Nat} (hc : c < r.co) : bias r m' c = bias r m c := by
  have hread := memRead_congr hspan hm (q := biasSpan r) (off := 4 * c) (n := 4) (by simp [readSpans])
    (show 4 * c + 4 ≤ 4 * r.co by omega)
  exact congrArg (fun v : Nat => s32 v) hread

theorem zw_congr {c : Nat} (hc : c < r.co) : zw t r m' c = zw t r m c := by
  unfold zw
  split
  · have hz : (zwSpan t r).size = r.co := if_pos ‹_›
    exact memRead_congr hspan hm (q := zwSpan t r) (by simp [readSpans]) (by omega)
  · rfl

theorem corrWeight_congr (hsize : sizeOk t r = true) {c j : Nat} (hc : c < r.co) (hj : j < r.len) :
    corrWeight t r m' c j = corrWeight t r m c j := by
  rw [corrWeight, corrWeight, weight_congr hspan hm hsize hc hj, zw_congr hspan hm hc]

theorem thr_congr (hf : t.fold = .thr) {c j : Nat} (hc : c < r.co) (hj : j < thresholdCount t.ob) :
    thr t r m' c j = thr t r m c j := by
  have hq : qaSpan t r = ⟨r.qaBase.toNat, 4 * r.co * thresholdCount t.ob⟩ := by simp only [qaSpan, hf]
  have hidx : c * thresholdCount t.ob + j < r.co * thresholdCount t.ob := mul_add_lt_mul hc hj
  have hread := memRead_congr hspan hm (q := qaSpan t r) (off := 4 * (c * thresholdCount t.ob + j)) (n := 4)
    (by simp [readSpans]) (by rw [hq]; simp only [Nat.mul_assoc]; omega)
  rw [hq] at hread
  exact congrArg (fun v : Nat => s32 v) hread

theorem mul_congr (hf : t.fold = .icn) {c : Nat} (hc : c < r.co) : mul r m' c = mul r m c := by
  have hq : qaSpan t r = ⟨r.qaBase.toNat, 4 * r.co⟩ := by simp only [qaSpan, hf]
  have hread := memRead_congr hspan hm (q := qaSpan t r) (off := 4 * c) (n := 4)
    (by simp [readSpans]) (by rw [hq]; simp only; omega)
  rw [hq] at hread
  exact congrArg (fun v : Nat => s32 v) hread

theorem shf_congr (hf : t.fold = .icn) {c : Nat} (hc : c < r.co) : shf r m' c = shf r m c := by
  have hq : qbSpan t r = ⟨r.qbBase.toNat, r.co⟩ := by simp only [qbSpan, hf]
  have hread := memRead_congr hspan hm (q := qbSpan t r) (off := c) (n := 1)
    (by simp [readSpans]) (by rw [hq]; simp only; omega)
  rw [hq] at hread
  exact congrArg (fun v : Nat => s8 v) hread

/-! ## What is computed from them -/

theorem fold_congr {c : Nat} (hc : c < r.co) (acc : Word) : fold t r m' c acc = fold t r m c acc := by
  unfold fold
  split
  · exact List.countP_congr fun j hj => by
      rw [thr_congr hspan hm ‹_› hc (List.mem_range.mp hj)]
  · rw [foldIcn, foldIcn, mul_congr hspan hm ‹_› hc, shf_congr hspan hm ‹_› hc]

theorem columnSum_congr (hsize : sizeOk t r = true) {c : Nat} (hc : c < r.co) (col : List Elem) :
    columnSum t r m' c col = columnSum t r m c col := by
  refine congrArg List.sum (List.map_congr_left fun j hj => ?_)
  rw [corrWeight_congr hspan hm hsize hc (List.mem_range.mp hj)]

theorem windowElem_congr (hsize : sizeOk t r = true) (hci : 0 < r.ci) (pos j : Nat) :
    windowElem t r m' pos j = windowElem t r m pos j := by
  simp only [windowElem, windowAt]
  split
  · obtain ⟨hy, hx⟩ := toNat_lt_of_inBounds ‹_›
    have hc : elemC r j < r.ci := Nat.mod_lt _ hci
    rw [inElem_congr hspan hm hsize hy hx hc]
  · rfl

theorem window_congr (hsize : sizeOk t r = true) (hci : 0 < r.ci) (pos : Nat) :
    window t r m' pos = window t r m pos :=
  List.map_congr_left fun j _ => by rw [windowElem_congr hspan hm hsize hci]

theorem premiseH6_congr : premiseH6 t r m' = premiseH6 t r m := by
  rw [Bool.eq_iff_iff, premiseH6_iff, premiseH6_iff]
  exact forall_congr' fun hf => forall₂_congr fun c hc => by rw [shf_congr hspan hm hf hc]

end Operands

/-- The contract looks at no byte but those of the read-only regions. -/
theorem inContract_of_sameOperands (hm : SameOperands t r m m') (h : inContract t r m = true) :
    inContract t r m' = true := by
  obtain ⟨hone, hfit, hspan, hdisj, hshift⟩ := (inContract_iff t r m).mp h
  exact (inContract_iff t r m').mpr ⟨hone, hfit, hspan, hdisj, (premiseH6_congr hspan hm).trans hshift⟩

end Agree

end Sys2Proof.Machine
end

section
/-! SUPPORT. The invariant of the machine (40_host_commands R126, R137; 44_requant_pack R282): each micro-step leaves the
sequencer at the next point of a legal call, and nothing else a step can do disturbs a call in progress. -/

namespace Sys2Proof.Machine

variable {t : Tag} {s u : State}

/-! ## The contract of a call in progress -/

/-- What the examination of START asks of the configuration and the operands, but for the MODE register: a convolution
issued as a whole call brings its own constants (40_host_commands R125, R126; log 4). -/
structure Premises (t : Tag) (s : State) : Prop where
  size : sizeOk t s.regs = true
  contract : inContract t s.regs s.mem = true

theorem Launchable.premises (h : Launchable t s) : Premises t s := by
  obtain ⟨-, hsize, hin, -⟩ := h
  exact ⟨hsize, hin⟩

/-- Premise H1 (40_host_commands R126). -/
theorem Premises.scalars (h : Premises t s) : premiseH1 s.regs = true := by
  obtain ⟨hone, -⟩ := (inContract_iff _ _ _).mp h.contract
  exact hone

/-- Premise H3. -/
theorem Premises.spans (h : Premises t s) : premiseH3 t s.regs = true := by
  obtain ⟨-, -, hspan, -⟩ := (inContract_iff _ _ _).mp h.contract
  exact hspan

/-- Premise H4. -/
theorem Premises.disjoint (h : Premises t s) : premiseH4 t s.regs = true := by
  obtain ⟨-, -, -, hdisj, -⟩ := (inContract_iff _ _ _).mp h.contract
  exact hdisj

theorem Premises.ci_pos (h : Premises t s) : 0 < s.regs.ci := by
  obtain ⟨-, hci, -⟩ := (premiseH1_iff _).mp h.scalars
  exact hci

theorem Premises.co_pos (h : Premises t s) : 0 < s.regs.co := by
  obtain ⟨-, -, hco, -⟩ := (premiseH1_iff _).mp h.scalars
  exact hco

theorem Premises.co_packs (h : Premises t s) : s.regs.co % t.ob.epb = 0 := by
  obtain ⟨-, -, hpacks, -⟩ := (sizeOk_iff _ _).mp h.size
  exact hpacks

theorem Premises.co_even (h : Premises t s) : s.regs.co % 2 = 0 := by
  obtain ⟨-, -, -, heven⟩ := (sizeOk_iff _ _).mp h.size
  exact heven

theorem Premises.of_sameOperands (h : Premises t s) (hregs : u.regs = s.regs)
    (hm : SameOperands t s.regs s.mem u.mem) : Premises t u where
  size := by rw [hregs, h.size]
  contract := by rw [hregs, inContract_of_sameOperands hm h.contract]

/-- A launch stays legal while the configuration and the operands stay. -/
theorem Launchable.of_sameOperands (h : Launchable t s) (hregs : u.regs = s.regs) (hholes : u.holes = s.holes)
    (hm : SameOperands t s.regs s.mem u.mem) : Launchable t u := by
  obtain ⟨hsize, hin⟩ := h.premises.of_sameOperands hregs hm
  obtain ⟨hmode, -, -, hback⟩ := h
  exact ⟨by rw [hregs, hmode], hsize, hin, by rw [hregs, hholes, hback]⟩

/-! ## The points of a call -/

/-- The sequencer stands at a point of a call inside the premises. -/
structure CallPoint (t : Tag) (s : State) : Prop where
  premises : Premises t s
  ready : SeqReady t s

theorem CallOk.point (h : CallOk t s) : CallPoint t s := ⟨h.1.premises, h.2⟩

theorem CallPoint.gatherReady (h : CallPoint t s) (hp : s.seq.phase = .gather) : GatherReady s := by
  simpa only [SeqReady, hp] using h.ready

theorem CallPoint.dot2Ready (h : CallPoint t s) (hp : s.seq.phase = .dot2) : Dot2Ready t s := by
  simpa only [SeqReady, hp] using h.ready

theorem CallPoint.dot1Ready (h : CallPoint t s) (hp : s.seq.phase = .dot1) : Dot1Ready t s := by
  simpa only [SeqReady, hp] using h.ready

theorem CallPoint.finishReady (h : CallPoint t s) (hp : s.seq.phase = .finish) : FinishReady s := by
  simpa only [SeqReady, hp] using h.ready

/-- No PACK of the call writes outside region OUT (20_memory R76), whatever word MODE holds. -/
theorem CallPoint.read_microStep_outside (h : CallPoint t s) {a : Nat} (ha : (outSpan t s.regs).has a = false) :
    (microStep t s).mem.read a = s.mem.read a := by
  have heven := h.premises.co_even
  have hout : ∀ pos c, pos < s.regs.n → c < s.regs.co → a ≠ packAddr t s.regs pos c := by
    rintro pos c hpos hc rfl
    exact Bool.false_ne_true (ha.symm.trans (outSpan_has_packAddr h.premises.size h.premises.spans hpos hc))
  unfold Machine.microStep
  split
  · rw [gather_mem]
  · obtain ⟨-, htwo, hpos, -, hchi, hchi2, -⟩ := h.dot2Ready ‹_›
    exact read_dot2Step fun pos c hp hc => hout pos c (by omega) (by omega)
  · obtain ⟨-, hpos, hodd, hchi, -⟩ := h.dot1Ready ‹_›
    exact read_dot1Step (hout _ _ (by omega) hchi)
  · rfl

theorem CallPoint.sameOperands (h : CallPoint t s) : SameOperands t s.regs s.mem (microStep t s).mem :=
  sameOperands_of_untouched h.premises.disjoint fun _ ha => h.read_microStep_outside ha.1

/-- The next point of a call is after a whole number of bytes iff the channel fills its byte (44_requant_pack R280). -/
theorem packEmits_iff (ob : Width) (c : Nat) : packEmits ob c = true ↔ (c + 1) % ob.epb = 0 := by
  cases ob <;> simp only [packEmits, beq_iff_eq, Width.epb, Width.bits] <;> omega

theorem dot2Step_packsClear (h : packEmits t.ob (s.seq.chi + 1) = true) : PacksClear (dot2Step t s) :=
  ⟨packByteStep_pk h, packByteStep_pk h⟩

theorem dot1Step_pk0 (h : packEmits t.ob s.seq.chi = true) : (dot1Step t s).pk0 = 0#8 := packByteStep_pk h

/-- After a GATHER: the next GATHER of a pair, a DOT2 of a whole pair, or the DOT1 of the last position
(40_host_commands R130). -/
theorem gather_seqReady (hco : 0 < s.regs.co) (h : GatherReady s) : SeqReady t (gather t s) := by
  obtain ⟨hpos, hfill, hclear, hcol⟩ := h
  have hseq := gather_seq t s
  unfold seqAfterGather at hseq
  split_ifs at hseq with hpair hlast
  · have hone : s.seq.fill ≠ 0 := by omega
    simp only [SeqReady, hseq, Dot2Ready, PacksClear, gather_regs, gather_pk0, gather_pk1, gather_col0, gather_col1, hone,
      if_false, window_length]
    exact ⟨hpair, by omega, hpos, by omega, hco, trivial, hcol (by omega), trivial, fun _ => hclear⟩
  · have hzero : s.seq.fill = 0 := by omega
    simp only [SeqReady, hseq, Dot1Ready, gather_regs, gather_pk0, gather_pk1, gather_col0, hzero, if_true, window_length]
    exact ⟨trivial, hlast, by omega, hco, trivial, hclear.2, fun _ => hclear.1⟩
  · have hzero : s.seq.fill = 0 := by omega
    simp only [SeqReady, hseq, GatherReady, PacksClear, gather_regs, gather_pk0, gather_pk1, gather_col0, hzero, if_true,
      window_length]
    exact ⟨by omega, by omega, hclear, fun _ => trivial⟩

/-- After a DOT2: the next channel pair, or, the pair of positions consumed, the next GATHER or FINISH
(40_host_commands R132). -/
theorem dot2Step_seqReady (heven : s.regs.co % 2 = 0) (hpacks : s.regs.co % t.ob.epb = 0) (h : Dot2Ready t s) :
    SeqReady t (dot2Step t s) := by
  obtain ⟨hfill, htwo, hpos, hpair, hchi, hchi2, hcol0, hcol1, -⟩ := h
  have hclear : (s.seq.chi + 2) % t.ob.epb = 0 → PacksClear (dot2Step t s) :=
    fun hb => dot2Step_packsClear ((packEmits_iff _ _).mpr hb)
  have hseq := dot2Step_seq t s
  unfold seqAfterDot2 at hseq
  split_ifs at hseq with hrow hend
  · simp only [SeqReady, hseq, FinishReady, dot2Step_regs]
    exact ⟨hend, trivial, hclear (by rw [hrow, hpacks])⟩
  · simp only [SeqReady, hseq, GatherReady, dot2Step_regs]
    exact ⟨by omega, by omega, hclear (by rw [hrow, hpacks]), fun hf => absurd hf (by decide)⟩
  · simp only [SeqReady, hseq, Dot2Ready, dot2Step_regs, dot2Step_col0, dot2Step_col1]
    exact ⟨hfill, htwo, hpos, hpair, by omega, by omega, hcol0, hcol1, hclear⟩

/-- After a DOT1: the next channel, or FINISH (40_host_commands R133). -/
theorem dot1Step_seqReady (hpacks : s.regs.co % t.ob.epb = 0) (h : Dot1Ready t s) : SeqReady t (dot1Step t s) := by
  obtain ⟨hfill, hpos, hodd, hchi, hcol0, hpk1, -⟩ := h
  have hclear : (s.seq.chi + 1) % t.ob.epb = 0 → (dot1Step t s).pk0 = 0#8 :=
    fun hb => dot1Step_pk0 ((packEmits_iff _ _).mpr hb)
  have hseq := dot1Step_seq t s
  unfold seqAfterDot1 at hseq
  split_ifs at hseq with hrow
  · simp only [SeqReady, hseq, FinishReady, PacksClear, dot1Step_regs, dot1Step_pk1]
    exact ⟨hpos, trivial, hclear (by rw [hrow, hpacks]), hpk1⟩
  · simp only [SeqReady, hseq, Dot1Ready, dot1Step_regs, dot1Step_pk1, dot1Step_col0]
    exact ⟨hfill, hpos, hodd, by omega, hcol0, hpk1, hclear⟩

/-- Every micro-step but FINISH leaves the sequencer at the next point of the same call. -/
theorem CallPoint.microStep (h : CallPoint t s) (hp : s.seq.phase ≠ .finish) : CallPoint t (microStep t s) := by
  refine ⟨h.premises.of_sameOperands (microStep_regs t s) h.sameOperands, ?_⟩
  cases hphase : s.seq.phase with
  | gather =>
    simp only [Machine.microStep, hphase]
    exact gather_seqReady h.premises.co_pos (h.gatherReady hphase)
  | dot2 =>
    simp only [Machine.microStep, hphase]
    exact dot2Step_seqReady h.premises.co_even h.premises.co_packs (h.dot2Ready hphase)
  | dot1 =>
    simp only [Machine.microStep, hphase]
    exact dot1Step_seqReady h.premises.co_packs (h.dot1Ready hphase)
  | finish => exact absurd hphase hp

theorem CallOk.microStep (h : CallOk t s) (hp : s.seq.phase ≠ .finish) : CallOk t (microStep t s) :=
  ⟨h.1.of_sameOperands (microStep_regs t s) (microStep_holes t s) h.point.sameOperands, (h.point.microStep hp).ready⟩

/-- START forgets COLBUF, which holds no operand (40_host_commands R126, H4). -/
theorem Premises.accept_sameOperands (h : Premises t s) : SameOperands t s.regs s.mem (accept t s).mem :=
  sameOperands_of_untouched h.disjoint fun _ ha =>
    read_forgetSpan_outside (premiseH3_span h.spans (colbuf_mem_callSpans t s.regs)) ha.2

/-- From the state START answers on, the sequencer stands at the first GATHER of the call. -/
theorem Premises.accept (h : Premises t s) : CallPoint t (accept t s) :=
  ⟨h.of_sameOperands rfl h.accept_sameOperands, s.regs.n_pos, rfl, ⟨rfl, rfl⟩, nofun⟩

theorem Launchable.accept (h : Launchable t s) : CallOk t (accept t s) :=
  ⟨h.of_sameOperands rfl rfl h.premises.accept_sameOperands, h.premises.accept.ready⟩

/-! ## Canonical memory -/

theorem pack0_wf {pos c : Nat} {acc : Word} (h : s.mem.wf = true) : (pack0 t pos c acc s).mem.wf = true :=
  packByteStep_wf h

theorem pack1_wf {pos c : Nat} {acc : Word} (h : s.mem.wf = true) : (pack1 t pos c acc s).mem.wf = true :=
  packByteStep_wf h

theorem microStep_wf (h : s.mem.wf = true) : (microStep t s).mem.wf = true := by
  unfold microStep
  split
  · rw [gather_mem]
    exact h
  · exact pack1_wf (pack0_wf (pack1_wf (pack0_wf h)))
  · exact pack0_wf h
  · exact h

theorem runCall_wf (k : Nat) (h : s.mem.wf = true) : (runCall t k s).mem.wf = true := by
  induction k generalizing s with
  | zero => exact h
  | succ k ih =>
    rw [runCall]
    split
    · exact ih (microStep_wf h)
    · exact h

theorem accept_wf (h : s.mem.wf = true) : (accept t s).mem.wf = true := forgetSpan_wf _ _ _ h

theorem memAfterReset_wf (h : s.mem.wf = true) : (memAfterReset s).wf = true := by
  unfold memAfterReset
  split
  · split
    · exact forgetSpan_wf _ _ _ (forgetSpan_wf _ _ _ h)
    · exact h
  · exact h

/-! ## Each thing a step can do keeps the invariant -/

theorem inv_of_not_busy (hwf : u.mem.wf = true) (hst : u.status ≠ .busy) : Inv u := ⟨hwf, fun hb => absurd hb hst⟩

theorem blockStep_inv (hinv : Inv s) (h : blockStep s = .next u) : Inv u := by
  rcases blockStep_cases s with ⟨-, hb⟩ | ⟨hbusy, t, hmode, hb⟩ | ⟨-, -, hb⟩ <;> rw [hb] at h <;> cases h
  · exact hinv
  · refine ⟨microStep_wf hinv.1, fun hstill => ?_⟩
    obtain ⟨t', hcall⟩ := hinv.2 hbusy
    obtain ⟨hlaunch, -⟩ := id hcall
    cases hmode.symm.trans hlaunch.1
    refine ⟨t, hcall.microStep fun hfinish => ?_⟩
    rw [microStep_status, if_pos hfinish] at hstill
    cases hstill

theorem launch_inv (hinv : Inv s) (hm : modeDecode s.regs.modeW = .legal t) (h : launch t s = .next u) : Inv u := by
  rcases launch_cases t s with ⟨-, hl⟩ | ⟨-, -, hl⟩ | ⟨-, -, -, hl⟩ | ⟨hsize, hin, hback, hl⟩ <;>
    rw [hl] at h <;> cases h
  · exact inv_of_not_busy hinv.1 nofun
  · exact ⟨accept_wf hinv.1, fun _ => ⟨t, Launchable.accept ⟨hm, hsize, hin, hback⟩⟩⟩

theorem startCommand_inv (hinv : Inv s) (h : startCommand s = .next u) : Inv u := by
  rcases startCommand_cases s with ⟨-, hs⟩ | ⟨-, -, hs⟩ | ⟨-, t, hm, hs⟩ <;> rw [hs] at h
  · cases h
    exact hinv
  · cases h
    exact inv_of_not_busy hinv.1 nofun
  · exact launch_inv hinv hm h

/-- A whole call ends outside BUSY: rejected, or in DONE. -/
theorem convCall_inv (hinv : Inv s) (h : convCall t s = .next u) : Inv u := by
  rcases convCall_cases t s with ⟨-, hc⟩ | ⟨-, q, -, hc⟩ | ⟨-, x, hx, hc⟩ <;> rw [hc] at h <;> cases h
  · exact hinv
  · rcases launch_cases t s with ⟨-, hl⟩ | ⟨-, -, hl⟩ | ⟨-, -, -, hl⟩ | ⟨hsize, hin, -, hl⟩ <;>
      rw [hl] at hx <;> cases hx
    · exact inv_of_not_busy (runCall_wf _ hinv.1) (by rw [runCall_not_busy t _ (by exact nofun)]; exact nofun)
    · exact inv_of_not_busy (runCall_wf _ (accept_wf hinv.1)) (by rw [runCall_accept_status hsize hin]; exact nofun)

theorem exec_inv {i : Instr} (hinv : Inv s) (h : exec i s = .next u) : Inv u := by
  rcases Laws.exec_cases i s with ⟨t, -, he⟩ | ⟨-, he⟩ | ⟨-, he⟩ | he <;> rw [he] at h
  · exact convCall_inv hinv h
  · rcases Laws.reservedMode_cases s with ⟨-, hr⟩ | ⟨-, hr⟩ <;> rw [hr] at h <;> cases h
    · exact inv_of_not_busy hinv.1 nofun
    · exact hinv
  · exact startCommand_inv hinv h
  · cases h
    exact hinv

theorem writeReg_inv (hinv : Inv s) (off : Nat) (v : Word) : Inv (writeReg s off v) := by
  rcases writeReg_cases s off v with ⟨-, h⟩ | ⟨hb, h⟩ <;> rw [h]
  · exact hinv
  · exact inv_of_not_busy hinv.1 hb

theorem hostPoll_inv {rest : List HostOp} (hinv : Inv s) (h : hostPoll rest s = .next u) : Inv u := by
  rcases hostPoll_cases rest s with ⟨-, hp⟩ | ⟨-, hp⟩ <;> rw [hp] at h
  · exact blockStep_inv hinv h
  · cases h
    exact hinv

theorem hostMemRead_inv {a : Addr} (hinv : Inv s) (h : hostMemRead a s = .next u) : Inv u := by
  obtain ⟨v, d, rfl⟩ := hostMemRead_next h
  exact hinv

/-- A host write while BUSY falls in no region of the call, so it changes no operand. -/
theorem hostMemWrite_inv {a : Addr} {v : Byte} (hinv : Inv s) (h : hostMemWrite a v s = .next u) : Inv u := by
  obtain ⟨rfl, hopen⟩ := hostMemWrite_next h
  refine ⟨write_wf v hinv.1 a.isLt, fun hb => ?_⟩
  obtain ⟨t, hlaunch, hready⟩ := hinv.2 hb
  refine ⟨t, hlaunch.of_sameOperands rfl rfl fun q hq b hqb => read_write_other _ v ?_, hready⟩
  rintro rfl
  refine hopen ⟨hb, (inCallRegion_iff s _).mpr ⟨t, hlaunch.1, ?_⟩⟩
  exact List.any_eq_true.mpr ⟨q, readSpan_mem_callSpans hq, hqb⟩

theorem resetBlock_inv (hinv : Inv s) : Inv (resetBlock s) := inv_of_not_busy (memAfterReset_wf hinv.1) nofun

/-- At every point of a call SEQ is in the ranges of 40_host_commands R137. -/
theorem CallPoint.seqRanges (h : CallPoint t s) : SeqRanges s := by
  unfold SeqRanges
  cases hphase : s.seq.phase with
  | gather =>
    obtain ⟨hpos, hfill, -⟩ := h.gatherReady hphase
    exact ⟨hpos.le, fun _ => ⟨hpos, by omega⟩, nofun, nofun⟩
  | dot2 =>
    obtain ⟨hfill, -, hpos, -⟩ := h.dot2Ready hphase
    exact ⟨hpos, nofun, fun _ => hfill, nofun⟩
  | dot1 =>
    obtain ⟨hfill, hpos, -⟩ := h.dot1Ready hphase
    exact ⟨hpos.le, nofun, nofun, fun _ => ⟨hfill, hpos⟩⟩
  | finish =>
    obtain ⟨hpos, -⟩ := h.finishReady hphase
    exact ⟨hpos.le, nofun, nofun, nofun⟩

end Sys2Proof.Machine

open Sys2Proof Sys2Proof.Machine

/-- Settles O51, over everything a step can be: the block's turn moves a call to its next point, START begins one, a
whole call ends it, and the host's other operations leave registers and operands alone while BUSY. -/
theorem everyStepKeepsTheInvariant : Obligations.EveryStepKeepsTheInvariant := by
  intro s u hinv h
  have hpend : ∀ ops, Inv { s with pending := ops } := fun _ => hinv
  rcases Laws.step_cases h with ⟨rest, -, hu⟩ | ⟨off, rest, -, -, -, rfl⟩ | ⟨v, rest, -, hu⟩ |
    ⟨off, v, rest, -, -, -, -, rfl⟩ | ⟨w, rest, -, hu⟩ | ⟨rest, -, hu⟩ | ⟨a, rest, -, hu⟩ | ⟨a, v, rest, -, hu⟩ |
    ⟨rest, -, rfl⟩
  · exact blockStep_inv (hpend rest) hu
  · exact hinv
  · exact exec_inv (hpend rest) hu
  · exact writeReg_inv (hpend rest) off v
  · exact exec_inv (writeReg_inv (hpend (.poll :: rest)) 0x08 w) hu
  · exact hostPoll_inv hinv hu
  · exact hostMemRead_inv (hpend rest) hu
  · exact hostMemWrite_inv (hpend rest) hu
  · exact resetBlock_inv (hpend rest)

/-- Settles O53: the point of the call a BUSY state stands at, phase by phase. -/
theorem invariantGivesTheSequencerRanges : Obligations.InvariantGivesTheSequencerRanges := by
  intro s hinv hb
  obtain ⟨t, hcall⟩ := hinv.2 hb
  exact hcall.point.seqRanges
end

section
/-! SUPPORT. The micro-steps, value by value (40_host_commands R130 to R136): the column a GATHER writes, the
accumulators of DOT2 and DOT1 as one wrapped sum (43_dot_product R248), and what a PACK does to its register and to
memory (44_requant_pack R280). -/

namespace Sys2Proof.Machine

/-! ## Accumulators -/

theorem mac_word32 (v w a : Int) : mac (word32 v) w a = word32 (v + w * a) := by
  simp only [mac, word32, BitVec.ofInt_add, BitVec.ofInt_toInt]

/-- Wrapping after each multiply-accumulate is wrapping the exact sum once (43_dot_product R247, R248). -/
theorem foldl_mac (l : List Nat) (w a : Nat → Int) (v : Int) :
    l.foldl (fun acc j => mac acc (w j) (a j)) (word32 v) = word32 (v + (l.map (fun j => w j * a j)).sum) := by
  induction l generalizing v with
  | nil => simp
  | cons j l ih =>
    rw [List.foldl_cons, mac_word32, ih, List.map_cons, List.sum_cons, add_assoc]

theorem dotColumn_eq (t : Tag) (r : Regs) (m : Memory) (c : Nat) (col : List Elem) :
    dotColumn t r m c col = word32 (bias r m c + columnSum t r m c col) := foldl_mac _ _ _ _

theorem foldl_dot2Turn (t : Tag) (r : Regs) (m : Memory) (c : Nat) (col0 col1 : List Elem) (l : List Nat) (q : Acc4) :
    l.foldl (dot2Turn t r m c col0 col1) q =
      { a0 := l.foldl (fun acc j => mac acc (corrWeight t r m c j) (colElem col0 j)) q.a0
        a1 := l.foldl (fun acc j => mac acc (corrWeight t r m c j) (colElem col1 j)) q.a1
        a2 := l.foldl (fun acc j => mac acc (corrWeight t r m (c + 1) j) (colElem col0 j)) q.a2
        a3 := l.foldl (fun acc j => mac acc (corrWeight t r m (c + 1) j) (colElem col1 j)) q.a3 } := by
  induction l generalizing q with
  | nil => rfl
  | cons j l ih => exact ih _

/-- The blocked loop of DOT2 is four scalar ones. -/
theorem dot2_eq (t : Tag) (r : Regs) (m : Memory) (c : Nat) (col0 col1 : List Elem) :
    dot2 t r m c col0 col1 =
      { a0 := dotColumn t r m c col0, a1 := dotColumn t r m c col1
        a2 := dotColumn t r m (c + 1) col0, a3 := dotColumn t r m (c + 1) col1 } :=
  foldl_dot2Turn t r m c col0 col1 _ _

/-! ## The window -/

theorem byteElem_lt (b : Width) (slot : Nat) (B : Byte) : byteElem b slot B < 2 ^ b.bits := by
  rw [byteElem_eq]
  exact Nat.mod_lt _ (Nat.two_pow_pos _)

theorem two_pow_bits_le (b : Width) : 2 ^ b.bits ≤ 256 := by cases b <;> decide

/-- A window element is a difference of two bytes, or 0 (42_window_builder R216). -/
theorem windowElem_range (t : Tag) (r : Regs) (m : Memory) (pos j : Nat) :
    -255 ≤ windowElem t r m pos j ∧ windowElem t r m pos j ≤ 255 := by
  have hz : r.zIn < 256 := (r.zp.extractLsb' 0 8).isLt
  simp only [windowElem, windowAt]
  split
  · have helem : ∀ y x c, inElem t r m y x c < 256 := fun y x c =>
      (byteElem_lt _ _ _).trans_le (two_pow_bits_le _)
    have := helem (originRow r pos + elemKy r j).toNat (originCol r pos + elemKx r j).toNat (elemC r j)
    omega
  · omega

/-- A column element holds its window element exactly. -/
theorem colElem_window (t : Tag) {r : Regs} (m : Memory) (pos : Nat) {j : Nat} (hj : j < r.len) :
    colElem (window t r m pos) j = windowElem t r m pos j := by
  obtain ⟨hlo, hhi⟩ := windowElem_range t r m pos j
  have hget : (window t r m pos).getD j 0#16 = BitVec.ofInt 16 (windowElem t r m pos j) := by simp [window, hj]
  rw [colElem, hget, BitVec.toInt_ofInt]
  exact Int.bmod_eq_of_le (by omega) (by omega)

section Index

variable {r : Regs} {ky kx c : Nat}

theorem windowIndex_lt (hy : ky < r.k) (hx : kx < r.k) (hc : c < r.ci) : (ky * r.k + kx) * r.ci + c < r.len :=
  calc (ky * r.k + kx) * r.ci + c < r.k * r.k * r.ci := mul_add_lt_mul (mul_add_lt_mul hy hx) hc
    _ = r.len := by rw [Regs.len, Nat.mul_comm, Nat.mul_assoc]

/-- Column element `(ky*K + kx)*CI + c` is the one of kernel position `(ky, kx)` and channel `c`
(42_window_builder R212). -/
theorem windowElem_index (t : Tag) (m : Memory) (pos : Nat) (hx : kx < r.k) (hc : c < r.ci) :
    windowElem t r m pos ((ky * r.k + kx) * r.ci + c) = windowAt t r m pos ky kx c := by
  have hpix : ((ky * r.k + kx) * r.ci + c) / r.ci = ky * r.k + kx := by
    rw [Nat.add_comm, Nat.add_mul_div_right _ _ (by omega), Nat.div_eq_of_lt hc, Nat.zero_add]
  have hrow : (ky * r.k + kx) / r.k = ky := by
    rw [Nat.add_comm, Nat.add_mul_div_right _ _ (by omega), Nat.div_eq_of_lt hx, Nat.zero_add]
  simp only [windowElem, elemKy, elemKx, elemC, hpix, hrow, Nat.mul_add_mod_of_lt hx, Nat.mul_add_mod_of_lt hc]

end Index

theorem gather_eq (t : Tag) (s : State) :
    gather t s = { s with
      seq := seqAfterGather s.regs s.seq
      col0 := if s.seq.fill = 0 then window t s.regs s.mem s.seq.pos else s.col0
      col1 := if s.seq.fill = 0 then s.col1 else window t s.regs s.mem s.seq.pos } := by
  unfold gather
  split <;> rfl

/-! ## PACK -/

section Pack

variable {t : Tag} {r : Regs} {pk : Byte} {m : Memory} {pos c lv : Nat}

theorem packEmits_eq_true {ob : Width} {c : Nat} : packEmits ob c = true ↔ c % ob.epb = ob.epb - 1 := beq_iff_eq

theorem packByteStep_of_emits (h : packEmits t.ob c = true) :
    packByteStep t r pk m pos c lv = (0#8, m.write (packAddr t r pos c) (packOr t.ob pk c lv)) := if_pos h

theorem packByteStep_of_keeps (h : ¬ packEmits t.ob c = true) :
    packByteStep t r pk m pos c lv = (packOr t.ob pk c lv, m) := if_neg h

theorem read_packByteStep_of_emits (hm : m.wf = true) (h : packEmits t.ob c = true) :
    (packByteStep t r pk m pos c lv).2.read (packAddr t r pos c) = packOr t.ob pk c lv := by
  rw [packByteStep_of_emits h]
  exact read_write_same _ _ hm

/-- PACK leaves every byte it does not emit alone. -/
theorem read_packByteStep_other {a : Nat} (h : packEmits t.ob c = true → a ≠ packAddr t r pos c) :
    (packByteStep t r pk m pos c lv).2.read a = m.read a := by
  by_cases he : packEmits t.ob c = true
  · exact packByteStep_read (h he)
  · rw [packByteStep_of_keeps he]

/-- The levels of a position take `CO div epb` whole bytes, since `epb` divides CO (40_host_commands R125). -/
theorem packAddr_eq_byte (hdvd : t.ob.epb ∣ r.co) (pos c : Nat) :
    packAddr t r pos c = wrapAddr (r.outBase.toNat + (pos * (r.co / t.ob.epb) + c / t.ob.epb)) := by
  rw [packAddr, Nat.add_div_of_dvd_right (hdvd.mul_left pos), Nat.mul_div_assoc _ hdvd]

/-- Two positions' bytes of region OUT are the same only for one position and one group of `epb` channels
(44_requant_pack R281). -/
theorem packAddr_ne {p p' c' : Nat} (hsize : sizeOk t r = true) (hspan : premiseH3 t r = true) (hp : p < r.n)
    (hc : c < r.co) (hp' : p' < r.n) (hc' : c' < r.co) (hne : p ≠ p' ∨ c / t.ob.epb ≠ c' / t.ob.epb) :
    packAddr t r p c ≠ packAddr t r p' c' := by
  obtain ⟨-, -, hco, -⟩ := (sizeOk_iff t r).mp hsize
  have hdvd : t.ob.epb ∣ r.co := Nat.dvd_of_mod_eq_zero hco
  have htop : r.outBase.toNat + (outSpan t r).size ≤ Config.addrSpace :=
    premiseH3_span (q := outSpan t r) hspan (by simp [callSpans])
  rw [outSpan_size, Nat.mul_div_assoc _ hdvd] at htop
  have hgroup : ∀ {y : Nat}, y < r.co → y / t.ob.epb < r.co / t.ob.epb :=
    fun hy => Nat.div_lt_div_of_lt_of_dvd hdvd hy
  have hin : ∀ {x y : Nat}, x < r.n → y < r.co →
      x * (r.co / t.ob.epb) + y / t.ob.epb < r.n * (r.co / t.ob.epb) :=
    fun hx hy => mul_add_lt_mul hx (hgroup hy)
  have hlt := hin hp hc
  have hlt' := hin hp' hc'
  rw [packAddr_eq_byte hdvd, packAddr_eq_byte hdvd, wrapAddr_of_lt (by omega), wrapAddr_of_lt (by omega)]
  intro h
  have hsum : p * (r.co / t.ob.epb) + c / t.ob.epb = p' * (r.co / t.ob.epb) + c' / t.ob.epb :=
    Nat.add_left_cancel h
  have hsame : c / t.ob.epb = c' / t.ob.epb := by
    have hmod := congrArg (· % (r.co / t.ob.epb)) hsum
    simpa only [Nat.mul_add_mod_of_lt (hgroup hc), Nat.mul_add_mod_of_lt (hgroup hc')] using hmod
  rcases hne with hne | hne
  · rw [hsame] at hsum
    exact hne (Nat.eq_of_mul_eq_mul_right ((Nat.zero_le _).trans_lt (hgroup hc)) (Nat.add_right_cancel hsum))
  · exact hne hsame

/-- A PACK of the call leaves every operand of the call alone. -/
theorem packByteStep_sameOperands (hsize : sizeOk t r = true) (hspan : premiseH3 t r = true)
    (hdisj : premiseH4 t r = true) (hp : pos < r.n) (hc : c < r.co) :
    SameOperands t r m (packByteStep t r pk m pos c lv).2 := by
  refine sameOperands_of_untouched hdisj fun a ha => packByteStep_read ?_
  rintro rfl
  exact Bool.false_ne_true (ha.1.symm.trans (outSpan_has_packAddr hsize hspan hp hc))

end Pack

end Sys2Proof.Machine
end

section
/-! SUPPORT. DOT2 as two pairs of PACKs, one pair for each of its channels (40_host_commands R132), and what a pair does
inside a legal call; then what the block's turn does at each phase. -/

namespace Sys2Proof.Machine

/-- The two PACKs of one channel of a DOT2: the levels of positions `POS - 2` and `POS - 1`. -/
def packPair (t : Tag) (c : Nat) (a b : Word) (s : State) : State :=
  pack1 t (s.seq.pos - 1) c b (pack0 t (s.seq.pos - 2) c a s)

/-- The accumulators of a DOT2 in place, nothing packed yet. -/
def dot2Seeded (t : Tag) (s : State) : State := s.withAcc (dot2 t s.regs s.mem s.seq.chi s.col0 s.col1)

/-- The state between the two channels of a DOT2. -/
def dot2Half (t : Tag) (s : State) : State :=
  packPair t s.seq.chi (dot2Seeded t s).acc0 (dot2Seeded t s).acc1 (dot2Seeded t s)

theorem dot2Step_eq (t : Tag) (s : State) :
    dot2Step t s =
      { packPair t (s.seq.chi + 1) (dot2Seeded t s).acc2 (dot2Seeded t s).acc3 (dot2Half t s) with
        seq := seqAfterDot2 s.regs s.seq } := rfl

section Pair

variable {t : Tag} {c : Nat} {a b : Word} {s : State}

/-- Where the channel does not fill its byte, both levels are ORed in and memory stays (44_requant_pack R280). -/
theorem packPair_of_keeps (h : ¬ packEmits t.ob c = true) :
    (packPair t c a b s).mem = s.mem ∧
      (packPair t c a b s).pk0 = packOr t.ob s.pk0 c (fold t s.regs s.mem c a) ∧
      (packPair t c a b s).pk1 = packOr t.ob s.pk1 c (fold t s.regs s.mem c b) := by
  have hmem : (pack0 t (s.seq.pos - 2) c a s).mem = s.mem := by rw [pack0_mem, packByteStep_of_keeps h]
  refine ⟨?_, ?_, ?_⟩
  · rw [packPair, pack1_mem, packByteStep_of_keeps h, hmem]
  · rw [packPair, pack1_pk0, pack0_pk0, packByteStep_of_keeps h]
  · rw [packPair, pack1_pk1, packByteStep_of_keeps h, hmem, pack0_pk1, pack0_regs]

/-- A pair of PACKs writes no byte but its own two, and those only where the channel fills them. -/
theorem read_packPair_other {x : Nat}
    (h : packEmits t.ob c = true →
      x ≠ packAddr t s.regs (s.seq.pos - 2) c ∧ x ≠ packAddr t s.regs (s.seq.pos - 1) c) :
    (packPair t c a b s).mem.read x = s.mem.read x :=
  (read_packByteStep_other fun he => (h he).2).trans (read_packByteStep_other fun he => (h he).1)

end Pair

/-! ## A pair of PACKs inside a legal call -/

/-- What a pair of PACKs needs of the configuration: a legal launch and two positions and a channel of the call. -/
structure PairOk (t : Tag) (r : Regs) (pos c : Nat) : Prop where
  size : sizeOk t r = true
  spans : premiseH3 t r = true
  disjoint : premiseH4 t r = true
  two : 2 ≤ pos
  pos_le : pos ≤ r.n
  chan : c < r.co

section Pair

variable {t : Tag} {c : Nat} {a b : Word} {s : State}

/-- Where the channel fills its byte, both pack registers clear and both bytes stand at their addresses. -/
theorem packPair_of_emits (hm : s.mem.wf = true) (hok : PairOk t s.regs s.seq.pos c) (h : packEmits t.ob c = true) :
    (packPair t c a b s).pk0 = 0#8 ∧ (packPair t c a b s).pk1 = 0#8 ∧
      (packPair t c a b s).mem.read (packAddr t s.regs (s.seq.pos - 2) c) =
        packOr t.ob s.pk0 c (fold t s.regs s.mem c a) ∧
      (packPair t c a b s).mem.read (packAddr t s.regs (s.seq.pos - 1) c) =
        packOr t.ob s.pk1 c (fold t s.regs s.mem c b) := by
  obtain ⟨hsize, hspan, hdisj, htwo, hpos, hc⟩ := hok
  have hne : packAddr t s.regs (s.seq.pos - 2) c ≠ packAddr t s.regs (s.seq.pos - 1) c :=
    packAddr_ne hsize hspan (by omega) hc (by omega) hc (.inl (by omega))
  have hfold : fold t s.regs (pack0 t (s.seq.pos - 2) c a s).mem c b = fold t s.regs s.mem c b :=
    fold_congr hspan (packByteStep_sameOperands hsize hspan hdisj (by omega) hc) hc b
  refine ⟨packByteStep_pk h, packByteStep_pk h, ?_, ?_⟩
  · rw [packPair, read_pack1 (s := pack0 t (s.seq.pos - 2) c a s) b hne, pack0_mem, read_packByteStep_of_emits hm h]
  · rw [packPair, pack1_mem, pack0_regs, hfold, pack0_pk1, read_packByteStep_of_emits (pack0_wf hm) h]

theorem packPair_wf (hm : s.mem.wf = true) : (packPair t c a b s).mem.wf = true := pack1_wf (pack0_wf hm)

theorem packPair_sameOperands (hok : PairOk t s.regs s.seq.pos c) :
    SameOperands t s.regs s.mem (packPair t c a b s).mem := by
  obtain ⟨hsize, hspan, hdisj, htwo, hpos, hc⟩ := hok
  refine sameOperands_of_untouched hdisj fun x hx => read_packPair_other fun _ => ⟨?_, ?_⟩ <;> rintro rfl
  · exact Bool.false_ne_true (hx.1.symm.trans (outSpan_has_packAddr hsize hspan (by omega) hc))
  · exact Bool.false_ne_true (hx.1.symm.trans (outSpan_has_packAddr hsize hspan (by omega) hc))

end Pair

/-- Both channels of a DOT2 of a legal call have their pair of PACKs inside it. -/
theorem CallPoint.pairOk {t : Tag} {s : State} (h : CallPoint t s) (hp : s.seq.phase = .dot2) :
    PairOk t s.regs s.seq.pos s.seq.chi ∧ PairOk t s.regs s.seq.pos (s.seq.chi + 1) := by
  obtain ⟨-, htwo, hpos, -, hchi, hchi2, -⟩ := h.dot2Ready hp
  have heven := h.premises.co_even
  have hok : ∀ c, c < s.regs.co → PairOk t s.regs s.seq.pos c := fun c hc =>
    ⟨h.premises.size, h.premises.spans, h.premises.disjoint, htwo, hpos, hc⟩
  exact ⟨hok _ hchi, hok _ (by omega)⟩

/-! ## DOT2 -/

section Dot2

variable {t : Tag} {s : State}

theorem dot2Seeded_acc (t : Tag) (s : State) :
    (dot2Seeded t s).acc0 = dotColumn t s.regs s.mem s.seq.chi s.col0 ∧
      (dot2Seeded t s).acc1 = dotColumn t s.regs s.mem s.seq.chi s.col1 ∧
      (dot2Seeded t s).acc2 = dotColumn t s.regs s.mem (s.seq.chi + 1) s.col0 ∧
      (dot2Seeded t s).acc3 = dotColumn t s.regs s.mem (s.seq.chi + 1) s.col1 := by
  simp only [dot2Seeded, withAcc_acc0, withAcc_acc1, withAcc_acc2, withAcc_acc3, dot2_eq, and_self]

/-- The four accumulators are the wrapped sums of two channels with two columns (43_dot_product R244, R248). -/
theorem dot2Step_acc (t : Tag) (s : State) :
    (dot2Step t s).acc0 = word32 (bias s.regs s.mem s.seq.chi + columnSum t s.regs s.mem s.seq.chi s.col0) ∧
      (dot2Step t s).acc1 = word32 (bias s.regs s.mem s.seq.chi + columnSum t s.regs s.mem s.seq.chi s.col1) ∧
      (dot2Step t s).acc2 =
        word32 (bias s.regs s.mem (s.seq.chi + 1) + columnSum t s.regs s.mem (s.seq.chi + 1) s.col0) ∧
      (dot2Step t s).acc3 =
        word32 (bias s.regs s.mem (s.seq.chi + 1) + columnSum t s.regs s.mem (s.seq.chi + 1) s.col1) := by
  obtain ⟨h0, h1, h2, h3⟩ := dot2Seeded_acc t s
  simp only [dot2Step_eq, packPair, dot2Half, pack1_acc0, pack1_acc1, pack1_acc2, pack1_acc3, pack0_acc0, pack0_acc1,
    pack0_acc2, pack0_acc3, h0, h1, h2, h3, dotColumn_eq, and_self]

/-- A DOT2 works on SEQ, ACC, PK and memory alone. -/
theorem dot2Step_frame (t : Tag) (s : State) :
    ∃ q a0 a1 a2 a3 k0 k1 m, dot2Step t s =
      { s with seq := q, acc0 := a0, acc1 := a1, acc2 := a2, acc3 := a3, pk0 := k0, pk1 := k1, mem := m } :=
  ⟨_, _, _, _, _, _, _, _, rfl⟩

/-- SEQ after a DOT2, field by field (40_host_commands R132). -/
theorem seqAfterDot2_fields (r : Regs) (q : SeqState) :
    (seqAfterDot2 r q).pos = q.pos ∧ (seqAfterDot2 r q).chi = q.chi + 2 ∧
      (q.chi + 2 = r.co → (seqAfterDot2 r q).fill = 0 ∧
        (seqAfterDot2 r q).phase = if q.pos = r.n then .finish else .gather) ∧
      (q.chi + 2 ≠ r.co → (seqAfterDot2 r q).fill = q.fill ∧ (seqAfterDot2 r q).phase = .dot2) := by
  by_cases hrow : q.chi + 2 = r.co <;> simp [seqAfterDot2, hrow]

/-- A DOT2 that fills no byte puts both levels of each position into its pack register. -/
theorem dot2Step_of_keeps (h0 : ¬ packEmits t.ob s.seq.chi = true) (h1 : ¬ packEmits t.ob (s.seq.chi + 1) = true) :
    (dot2Step t s).mem = s.mem ∧
      (dot2Step t s).pk0 =
        packOr t.ob (packOr t.ob s.pk0 s.seq.chi (fold t s.regs s.mem s.seq.chi (dot2Step t s).acc0)) (s.seq.chi + 1)
          (fold t s.regs s.mem (s.seq.chi + 1) (dot2Step t s).acc2) ∧
      (dot2Step t s).pk1 =
        packOr t.ob (packOr t.ob s.pk1 s.seq.chi (fold t s.regs s.mem s.seq.chi (dot2Step t s).acc1)) (s.seq.chi + 1)
          (fold t s.regs s.mem (s.seq.chi + 1) (dot2Step t s).acc3) := by
  obtain ⟨hm, hk0, hk1⟩ :=
    packPair_of_keeps (a := (dot2Seeded t s).acc0) (b := (dot2Seeded t s).acc1) (s := dot2Seeded t s) h0
  obtain ⟨hm', hk0', hk1'⟩ :=
    packPair_of_keeps (a := (dot2Seeded t s).acc2) (b := (dot2Seeded t s).acc3) (s := dot2Half t s) h1
  have hhalf : (dot2Half t s).mem = s.mem := hm
  have hhalf0 : (dot2Half t s).pk0 = _ := hk0
  have hhalf1 : (dot2Half t s).pk1 = _ := hk1
  rw [hhalf] at hm' hk0' hk1'
  rw [hhalf0] at hk0'
  rw [hhalf1] at hk1'
  exact ⟨hm', hk0', hk1'⟩

/-- A DOT2 of a legal call whose second channel alone fills its byte: each byte holds the pack register and both
levels. -/
theorem dot2Step_of_emits_second (hcall : CallPoint t s) (hp : s.seq.phase = .dot2) (hm : s.mem.wf = true)
    (h0 : ¬ packEmits t.ob s.seq.chi = true) (h1 : packEmits t.ob (s.seq.chi + 1) = true) :
    (dot2Step t s).mem.read (packAddr t s.regs (s.seq.pos - 2) (s.seq.chi + 1)) =
        packOr t.ob (packOr t.ob s.pk0 s.seq.chi (fold t s.regs s.mem s.seq.chi (dot2Step t s).acc0)) (s.seq.chi + 1)
          (fold t s.regs s.mem (s.seq.chi + 1) (dot2Step t s).acc2) ∧
      (dot2Step t s).mem.read (packAddr t s.regs (s.seq.pos - 1) (s.seq.chi + 1)) =
        packOr t.ob (packOr t.ob s.pk1 s.seq.chi (fold t s.regs s.mem s.seq.chi (dot2Step t s).acc1)) (s.seq.chi + 1)
          (fold t s.regs s.mem (s.seq.chi + 1) (dot2Step t s).acc3) := by
  obtain ⟨-, hok⟩ := hcall.pairOk hp
  obtain ⟨hhalf, hhalf0, hhalf1⟩ : (dot2Half t s).mem = s.mem ∧ (dot2Half t s).pk0 = _ ∧ (dot2Half t s).pk1 = _ :=
    packPair_of_keeps (a := (dot2Seeded t s).acc0) (b := (dot2Seeded t s).acc1) (s := dot2Seeded t s) h0
  obtain ⟨-, -, hread0, hread1⟩ :=
    packPair_of_emits (a := (dot2Seeded t s).acc2) (b := (dot2Seeded t s).acc3) (s := dot2Half t s) (hhalf ▸ hm) hok h1
  rw [hhalf, hhalf0] at hread0
  rw [hhalf, hhalf1] at hread1
  exact ⟨hread0, hread1⟩

/-- Two channels in a row fill a byte each only at 8 bits, so the pack registers held no level before. -/
theorem CallPoint.packsClear_of_emits (hcall : CallPoint t s) (hp : s.seq.phase = .dot2)
    (h0 : packEmits t.ob s.seq.chi = true) (h1 : packEmits t.ob (s.seq.chi + 1) = true) : PacksClear s := by
  obtain ⟨-, -, -, -, -, -, -, -, hclear⟩ := hcall.dot2Ready hp
  rw [packEmits_iff] at h0 h1
  refine hclear ?_
  cases hw : t.ob <;> simp only [hw, Width.epb, Width.bits] at h0 h1 ⊢ <;> omega

/-- A DOT2 of a legal call whose channels fill a byte each: four bytes of one level. -/
theorem dot2Step_of_emits_both (hcall : CallPoint t s) (hp : s.seq.phase = .dot2) (hm : s.mem.wf = true)
    (h0 : packEmits t.ob s.seq.chi = true) (h1 : packEmits t.ob (s.seq.chi + 1) = true) :
    (dot2Step t s).mem.read (packAddr t s.regs (s.seq.pos - 2) s.seq.chi) =
        packOr t.ob 0#8 s.seq.chi (fold t s.regs s.mem s.seq.chi (dot2Step t s).acc0) ∧
      (dot2Step t s).mem.read (packAddr t s.regs (s.seq.pos - 1) s.seq.chi) =
        packOr t.ob 0#8 s.seq.chi (fold t s.regs s.mem s.seq.chi (dot2Step t s).acc1) ∧
      (dot2Step t s).mem.read (packAddr t s.regs (s.seq.pos - 2) (s.seq.chi + 1)) =
        packOr t.ob 0#8 (s.seq.chi + 1) (fold t s.regs s.mem (s.seq.chi + 1) (dot2Step t s).acc2) ∧
      (dot2Step t s).mem.read (packAddr t s.regs (s.seq.pos - 1) (s.seq.chi + 1)) =
        packOr t.ob 0#8 (s.seq.chi + 1) (fold t s.regs s.mem (s.seq.chi + 1) (dot2Step t s).acc3) := by
  obtain ⟨hok0, hok1⟩ := hcall.pairOk hp
  obtain ⟨hpk0, hpk1⟩ := hcall.packsClear_of_emits hp h0 h1
  obtain ⟨hhalf0, hhalf1, hread0, hread1⟩ :=
    packPair_of_emits (a := (dot2Seeded t s).acc0) (b := (dot2Seeded t s).acc1) (s := dot2Seeded t s) hm hok0 h0
  obtain ⟨-, -, hread2, hread3⟩ :=
    packPair_of_emits (a := (dot2Seeded t s).acc2) (b := (dot2Seeded t s).acc3) (s := dot2Half t s)
      (packPair_wf (s := dot2Seeded t s) hm) hok1 h1
  have hsame : SameOperands t s.regs s.mem (dot2Half t s).mem := packPair_sameOperands (s := dot2Seeded t s) hok0
  have hbyte : s.seq.chi / t.ob.epb ≠ (s.seq.chi + 1) / t.ob.epb := by
    rw [packEmits_iff] at h0
    rw [Nat.succ_div_of_mod_eq_zero h0]
    exact (Nat.lt_succ_self _).ne
  have hkeep : ∀ p, p < s.regs.n → (dot2Step t s).mem.read (packAddr t s.regs p s.seq.chi) =
      (dot2Half t s).mem.read (packAddr t s.regs p s.seq.chi) := by
    obtain ⟨hsize, hspan, -, htwo, hpos, hc⟩ := hok1
    exact fun p hlt => read_packPair_other (s := dot2Half t s) fun _ =>
      ⟨packAddr_ne hsize hspan hlt hok0.chan (show s.seq.pos - 2 < s.regs.n by omega) hc (.inr hbyte),
        packAddr_ne hsize hspan hlt hok0.chan (show s.seq.pos - 1 < s.regs.n by omega) hc (.inr hbyte)⟩
  have hfold : ∀ acc, fold t s.regs (dot2Half t s).mem (s.seq.chi + 1) acc = fold t s.regs s.mem (s.seq.chi + 1) acc :=
    fold_congr hok1.spans hsame hok1.chan
  have htwo := hok0.two
  have hpos := hok0.pos_le
  rw [show (dot2Half t s).pk0 = 0#8 from hhalf0] at hread2
  rw [show (dot2Half t s).pk1 = 0#8 from hhalf1] at hread3
  rw [show (dot2Seeded t s).pk0 = 0#8 from hpk0] at hread0
  rw [show (dot2Seeded t s).pk1 = 0#8 from hpk1] at hread1
  exact ⟨(hkeep _ (by omega)).trans hread0, (hkeep _ (by omega)).trans hread1,
    hread2.trans (congrArg _ (hfold _)), hread3.trans (congrArg _ (hfold _))⟩

/-- A DOT2 writes no byte but those its channels fill. -/
theorem read_dot2Step_other {x : Nat}
    (h0 : packEmits t.ob s.seq.chi = true →
      x ≠ packAddr t s.regs (s.seq.pos - 2) s.seq.chi ∧ x ≠ packAddr t s.regs (s.seq.pos - 1) s.seq.chi)
    (h1 : packEmits t.ob (s.seq.chi + 1) = true →
      x ≠ packAddr t s.regs (s.seq.pos - 2) (s.seq.chi + 1) ∧ x ≠ packAddr t s.regs (s.seq.pos - 1) (s.seq.chi + 1)) :
    (dot2Step t s).mem.read x = s.mem.read x :=
  (read_packPair_other (s := dot2Half t s) h1).trans (read_packPair_other (s := dot2Seeded t s) h0)

end Dot2

/-! ## The block's turn at each phase -/

section Turn

variable {t : Tag} {s : State} {rest : List HostOp}

theorem microStep_withPending (t : Tag) (s : State) (rest : List HostOp) :
    microStep t { s with pending := rest } = { microStep t s with pending := rest } := by
  unfold microStep
  cases s.seq.phase
  · simp only [gather_eq]
  · rfl
  · rfl
  · rfl

/-- The turn of a BUSY block is its micro-step, with the rest pending. -/
theorem step_turn (hb : s.status = .busy) (hturn : TurnLeaves s rest) (hm : modeDecode s.regs.modeW = .legal t) :
    step s = .next { microStep t s with pending := rest } := by
  rw [step_of_turnLeaves hturn, blockStep_busy (s := { s with pending := rest }) hb hm, microStep_withPending]

end Turn

/-- SEQ after a GATHER, field by field (40_host_commands R130). -/
theorem seqAfterGather_fields (r : Regs) (q : SeqState) :
    (seqAfterGather r q).pos = q.pos + 1 ∧ (seqAfterGather r q).fill = q.fill + 1 ∧
      (q.fill = 1 → (seqAfterGather r q).phase = .dot2 ∧ (seqAfterGather r q).chi = 0) ∧
      (q.fill = 0 → q.pos + 1 = r.n → (seqAfterGather r q).phase = .dot1 ∧ (seqAfterGather r q).chi = 0) ∧
      (q.fill = 0 → q.pos + 1 ≠ r.n → (seqAfterGather r q).phase = .gather ∧ (seqAfterGather r q).chi = q.chi) := by
  unfold seqAfterGather
  split_ifs with hpair hlast
  · exact ⟨rfl, rfl, fun _ => ⟨rfl, rfl⟩, fun _ _ => by omega, fun _ _ => by omega⟩
  · exact ⟨rfl, rfl, fun _ => by omega, fun _ _ => ⟨rfl, rfl⟩, fun _ _ => by omega⟩
  · exact ⟨rfl, rfl, fun _ => by omega, fun _ _ => by omega, fun _ _ => ⟨rfl, rfl⟩⟩

/-- SEQ after a DOT1, field by field (40_host_commands R133). -/
theorem seqAfterDot1_fields (r : Regs) (q : SeqState) :
    (seqAfterDot1 r q).pos = q.pos ∧ (seqAfterDot1 r q).chi = q.chi + 1 ∧
      (q.chi + 1 = r.co → (seqAfterDot1 r q).fill = 0 ∧ (seqAfterDot1 r q).phase = .finish) ∧
      (q.chi + 1 ≠ r.co → (seqAfterDot1 r q).fill = q.fill ∧ (seqAfterDot1 r q).phase = .dot1) := by
  by_cases hrow : q.chi + 1 = r.co <;> simp [seqAfterDot1, hrow]

theorem dot1Step_acc0 (t : Tag) (s : State) :
    (dot1Step t s).acc0 = word32 (bias s.regs s.mem s.seq.chi + columnSum t s.regs s.mem s.seq.chi s.col0) :=
  dotColumn_eq _ _ _ _ _

theorem dot1Step_pack (t : Tag) (s : State) :
    ((dot1Step t s).pk0, (dot1Step t s).mem) =
      packByteStep t s.regs s.pk0 s.mem (s.seq.pos - 1) s.seq.chi
        (fold t s.regs s.mem s.seq.chi (dot1Step t s).acc0) := rfl

end Sys2Proof.Machine

open Sys2Proof Sys2Proof.Machine

/-- Settles O31: the column is `window`, whose elements fit 16 bits, at the index of a kernel position. -/
theorem gatherWritesTheWindow : Obligations.GatherWritesTheWindow := by
  intro s t rest hb hturn hm hp hfill
  obtain ⟨hpos, hfill', hdot2, hdot1, hgather⟩ := seqAfterGather_fields s.regs s.seq
  have hstep : step s = .next { gather t s with pending := rest } := by
    simpa only [microStep, hp] using step_turn hb hturn hm
  refine ⟨_, window t s.regs s.mem s.seq.pos, hstep, window_length _ _ _ _, ?frame, ?_⟩
  case frame =>
    rcases Nat.lt_succ_iff_lt_or_eq.mp hfill with h | h
    · simp [gather_eq, Nat.lt_one_iff.mp h]
    · simp [gather_eq, h]
  simp only [gather_seq]
  refine ⟨hpos, hfill', hdot2, hdot1, hgather, fun ky kx c hy hx hc => ?_⟩
  rw [colElem_window t s.mem s.seq.pos (windowIndex_lt hy hx hc), windowElem_index t s.mem s.seq.pos hx hc]
  simp only [windowAt, inBounds, originRow, originCol, posRow, posCol, inElem, Bool.and_eq_true, decide_eq_true_eq,
    and_assoc, Nat.cast_mul]

/-- Settles O32: the blocked loop is four wrapped sums, and the four PACKs are two pairs, each of which fills a byte of
both positions or none. -/
theorem dot2FormsFourAccumulators : Obligations.Dot2FormsFourAccumulators := by
  intro s t rest hb hturn hm hp c
  obtain ⟨hacc0, hacc1, hacc2, hacc3⟩ := dot2Step_acc t s
  obtain ⟨hpos, hchi, hlast, hmore⟩ := seqAfterDot2_fields s.regs s.seq
  have hemits : ∀ {k}, packEmits t.ob k = true ↔ k % t.ob.epb = t.ob.epb - 1 := packEmits_eq_true
  have hstep : step s = .next { dot2Step t s with pending := rest } := by
    simpa only [microStep, hp] using step_turn hb hturn hm
  refine ⟨_, hstep, ?_⟩
  dsimp only
  refine ⟨?only, hacc0, hacc1, hacc2, hacc3, hpos, hchi, hlast, hmore, ?keeps, ?emits, ?frame⟩
  case only =>
    obtain ⟨q, a0, a1, a2, a3, k0, k1, m, hframe⟩ := dot2Step_frame t s
    rw [hframe]
  case keeps => exact fun h0 h1 => dot2Step_of_keeps (mt hemits.mp h0) (mt hemits.mp h1)
  case emits =>
    intro hwf hcall h1
    obtain ⟨hpk0, hpk1⟩ := dot2Step_packsClear (s := s) (hemits.mpr h1)
    exact ⟨hpk0, hpk1, fun h0 => dot2Step_of_emits_second hcall.point hp hwf (mt hemits.mp h0) (hemits.mpr h1),
      fun h0 => dot2Step_of_emits_both hcall.point hp hwf (hemits.mpr h0) (hemits.mpr h1)⟩
  case frame => exact fun x h0 h1 => read_dot2Step_other (fun h => h0 (hemits.mp h)) (fun h => h1 (hemits.mp h))

/-- Settles O33: the accumulator is one wrapped sum, and the one PACK either keeps its level or emits its byte. -/
theorem dot1FormsOneAccumulator : Obligations.Dot1FormsOneAccumulator := by
  intro s t rest hwf hb hturn hm hp
  obtain ⟨hpos, hchi, hlast, hmore⟩ := seqAfterDot1_fields s.regs s.seq
  obtain ⟨hpk, hmem⟩ := Prod.ext_iff.mp (dot1Step_pack t s)
  have hstep : step s = .next { dot1Step t s with pending := rest } := by
    simpa only [microStep, hp] using step_turn hb hturn hm
  refine ⟨_, hstep, rfl, dot1Step_acc0 t s, hpos, hchi, hlast, hmore, ?keeps, ?emits⟩
  case keeps =>
    intro h
    rw [packByteStep_of_keeps (mt packEmits_eq_true.mp h)] at hpk hmem
    exact ⟨hpk, hmem⟩
  case emits =>
    intro h
    rw [← packEmits_eq_true] at h
    exact ⟨dot1Step_pk0 h, (congrArg (Memory.read · _) hmem).trans (read_packByteStep_of_emits hwf h),
      fun a ha => read_dot1Step ha⟩

/-- Settles O34: FINISH is the micro-step of its phase, and outside BUSY the block's turn does nothing. -/
theorem finishWritesDone : Obligations.FinishWritesDone := by
  intro s t rest hturn
  refine ⟨fun hb hm hp => ?_, fun hdone => ?_⟩
  · rw [step_turn hb hturn hm]
    simp only [microStep, hp, finish]
  · have hidle : ({ s with pending := rest } : State).status ≠ .busy := by
      show s.status ≠ .busy
      rw [hdone]
      exact nofun
    rw [step_of_turnLeaves hturn, blockStep_not_busy hidle]
end

section
/-! SUPPORT. How long a call is BUSY (40_host_commands R137): until the last micro-step of its schedule, FINISH. -/

namespace Sys2Proof.Machine

theorem stepsLeft_finish {r : Regs} {q : SeqState} (h : q.phase = .finish) : stepsLeft r q = 1 := by
  simp only [stepsLeft, h]

/-- A BUSY block on schedule is BUSY until it has taken the micro-steps it has left. -/
theorem runCall_busy_of_lt {t : Tag} {s : State} {k : Nat} (hb : s.status = .busy) (hco : 0 < s.regs.co)
    (heven : s.regs.co % 2 = 0) (hs : OnSchedule s.regs s.seq) (hk : k < stepsLeft s.regs s.seq) :
    (runCall t k s).status = .busy := by
  induction k generalizing s with
  | zero => exact hb
  | succ k ih =>
    have hp : s.seq.phase ≠ .finish := by
      intro h
      rw [stepsLeft_finish h] at hk
      omega
    obtain ⟨hs', hk'⟩ := nextSeq_schedule hco heven hp hs
    have hb' : (microStep t s).status = .busy := by rw [microStep_status, if_neg hp, hb]
    rw [runCall, if_pos hb]
    refine ih hb' ?_ ?_ ?_ ?_ <;> simp only [microStep_regs, microStep_seq]
    · exact hco
    · exact heven
    · exact hs'
    · omega

end Sys2Proof.Machine

open Sys2Proof Sys2Proof.Machine

/-- Settles O30: a run with nothing pending is the run of micro-steps, and the accepted state stands at the start of a
schedule of exactly that many. -/
theorem acceptedStartTakesExactlyItsSteps : Obligations.AcceptedStartTakesExactlyItsSteps := by
  intro s t _ hpend hst hlaunch
  have hrun : ∀ k, Host.Core.run core k (accept t s) = .next (runCall t k (accept t s)) :=
    fun k => run_eq_runCall k hpend hlaunch.1
  have hschedule : OnSchedule (accept t s).regs (accept t s).seq := ⟨s.regs.n_pos, rfl⟩
  obtain ⟨hm, hsize, hin, hback⟩ := id hlaunch
  refine ⟨accept t s, (exec_start_legal ((acceptsStart_iff _).mpr hst) hm).trans (launch_accepts hsize hin hback),
    fun k hk => ⟨_, hrun k, ?busy⟩, ⟨_, hrun _, runCall_accept_status hsize hin⟩⟩
  case busy =>
    exact runCall_busy_of_lt (s := accept t s) rfl hlaunch.premises.co_pos hlaunch.premises.co_even hschedule hk
end

section
/-! SUPPORT. The whole call computes Conv (40_host_commands R138). At each point of a call the positions consumed stand
in region OUT, the pack registers hold the levels of the byte under way, and the columns are the windows of the positions
in hand; each micro-step carries this to the next point. -/

namespace Sys2Proof.Machine

/-! ## Levels -/

/-- A level fits the slot it is packed into (44_requant_pack R271). -/
theorem fold_lt (t : Tag) (r : Regs) (m : Memory) (c : Nat) (acc : Word) : fold t r m c acc < 2 ^ t.ob.bits := by
  have hpos : 0 < 2 ^ t.ob.bits := Nat.two_pow_pos _
  unfold fold
  split
  · have hcount : foldThr t r m c acc.toInt ≤ thresholdCount t.ob :=
      List.countP_le_length.trans_eq List.length_range
    exact hcount.trans_lt (Nat.sub_lt hpos Nat.one_pos)
  · have hclamp : clamp (icnValue acc.toInt (mul r m c) (shf r m c) r.zOut) 0 (2 ^ t.ob.bits - 1) ≤
        2 ^ t.ob.bits - 1 := max_le (Int.le_sub_one_of_lt (by positivity)) (min_le_left _ _)
    have hcast : ((2 ^ t.ob.bits : Nat) : Int) = 2 ^ t.ob.bits := Nat.cast_pow 2 _
    rw [foldIcn, icnLevel]
    omega

/-- The accumulator against a window is the one of 40_host_commands R138, over any memory with the call's operands. -/
theorem dotColumn_window {t : Tag} {r : Regs} {m m' : Memory} (hsize : sizeOk t r = true) (hspan : premiseH3 t r = true)
    (hm : SameOperands t r m m') {c : Nat} (hc : c < r.co) (pos : Nat) :
    dotColumn t r m' c (window t r m pos) = convAcc t r m pos c := by
  have hsum : columnSum t r m c (window t r m pos) = dotSum t r m pos c :=
    congrArg List.sum (List.map_congr_left fun j hj => by rw [colElem_window t m pos (List.mem_range.mp hj)])
  rw [dotColumn_eq, bias_congr hspan hm hc, columnSum_congr hspan hm hsize hc, hsum, convAcc]

/-! ## A position under way -/

/-- The levels of the byte `j` of a position whose channel `c` has level `lv c`. -/
def byteLevels (b : Width) (lv : Nat → Nat) (j : Nat) : List Nat := (List.range b.epb).map (fun k => lv (j * b.epb + k))

theorem byteLevels_getD (b : Width) (lv : Nat → Nat) (j : Nat) {k : Nat} (hk : k < b.epb) :
    (byteLevels b lv j).getD k 0 = lv (j * b.epb + k) := by simp [byteLevels, hk]

theorem byteLevels_lt {b : Width} {lv : Nat → Nat} (hlv : ∀ c, lv c < 2 ^ b.bits) (j slot : Nat) :
    (byteLevels b lv j).getD slot 0 < 2 ^ b.bits := by
  rcases lt_or_ge slot b.epb with hs | hs
  · rw [byteLevels_getD b lv j hs]
    exact hlv _
  · rw [List.getD_eq_default _ _ (by simpa [byteLevels] using hs)]
    exact Nat.two_pow_pos _

/-- The whole bytes of a position's channels below `c` stand in region OUT. -/
def BytesDone (t : Tag) (r : Regs) (lv : Nat → Nat) (m : Memory) (pos c : Nat) : Prop :=
  ∀ j, j < c / t.ob.epb →
    m.read (packAddr t r pos (j * t.ob.epb)) = BitVec.ofNat 8 (packByte t.ob (byteLevels t.ob lv j))

/-- A position packed up to channel `c`: its whole bytes in OUT, the levels of the byte under way in the pack
register. -/
def RowPacked (t : Tag) (r : Regs) (lv : Nat → Nat) (m : Memory) (pk : Byte) (pos c : Nat) : Prop :=
  pk = BitVec.ofNat 8 (packFirst t.ob (byteLevels t.ob lv (c / t.ob.epb)) (c % t.ob.epb)) ∧ BytesDone t r lv m pos c

section Row

variable {t : Tag} {r : Regs} {lv : Nat → Nat} {m m' : Memory} {pk pk' : Byte} {pos c : Nat}

theorem BytesDone.congr (h : BytesDone t r lv m pos c)
    (hread : ∀ c', c' < c → m'.read (packAddr t r pos c') = m.read (packAddr t r pos c')) :
    BytesDone t r lv m' pos c := fun j hj =>
  (hread _ ((Nat.mul_lt_mul_of_pos_right hj (epb_pos _)).trans_le (Nat.div_mul_le_self _ _))).trans (h j hj)

/-- Before the first channel of a position nothing is packed. -/
theorem rowPacked_zero (hpk : pk = 0#8) : RowPacked t r lv m pk pos 0 := by
  refine ⟨?_, fun j hj => absurd hj (by simp)⟩
  rw [hpk, Nat.zero_mod]
  rfl

/-- A PACK's OR puts the level of channel `c` behind those of the channels before it in its byte. -/
theorem packOr_of_first (hlv : ∀ c, lv c < 2 ^ t.ob.bits)
    (hpk : pk = BitVec.ofNat 8 (packFirst t.ob (byteLevels t.ob lv (c / t.ob.epb)) (c % t.ob.epb))) :
    packOr t.ob pk c (lv c) =
      BitVec.ofNat 8 (packFirst t.ob (byteLevels t.ob lv (c / t.ob.epb)) (c % t.ob.epb + 1)) := by
  have hslot : c % t.ob.epb < t.ob.epb := Nat.mod_lt _ (epb_pos _)
  have hsame : packOr t.ob pk c (lv c) = packOr t.ob pk (c % t.ob.epb) (lv c) := by
    rw [packOr, packOr, Nat.mod_mod]
  have hlevel : (byteLevels t.ob lv (c / t.ob.epb)).getD (c % t.ob.epb) 0 = lv c := by
    rw [byteLevels_getD _ _ _ hslot, Nat.div_add_mod']
  rw [hsame, hpk, packOr_of_empty hslot (hlv c) (two_pow_dvd_packFirst _ hslot.le), packFirst_succ, hlevel]

theorem packAddr_group (hdvd : t.ob.epb ∣ r.co) (pos c : Nat) :
    packAddr t r pos (c / t.ob.epb * t.ob.epb) = packAddr t r pos c := by
  rw [packAddr_eq_byte hdvd, packAddr_eq_byte hdvd, Nat.mul_div_cancel _ (epb_pos _)]

/-- PACK of a channel's level takes its position to the next channel. -/
theorem RowPacked.pack (h : RowPacked t r lv m pk pos c) (hm : m.wf = true) (hsize : sizeOk t r = true)
    (hspan : premiseH3 t r = true) (hlv : ∀ c, lv c < 2 ^ t.ob.bits) (hpos : pos < r.n) (hc : c < r.co) :
    RowPacked t r lv (packByteStep t r pk m pos c (lv c)).2 (packByteStep t r pk m pos c (lv c)).1 pos (c + 1) := by
  obtain ⟨hpk, hbytes⟩ := h
  have hor := packOr_of_first hlv hpk
  by_cases he : packEmits t.ob c = true
  · have hmod := (packEmits_iff _ _).mp he
    have hdiv : (c + 1) / t.ob.epb = c / t.ob.epb + 1 := Nat.succ_div_of_mod_eq_zero hmod
    have hlast : c % t.ob.epb + 1 = t.ob.epb := by
      have := packEmits_eq_true.mp he
      have := epb_pos t.ob
      omega
    obtain ⟨-, -, hco, -⟩ := (sizeOk_iff t r).mp hsize
    have hgroup := packAddr_group (r := r) (Nat.dvd_of_mod_eq_zero hco) pos c
    rw [packByteStep_of_emits he, hor, hlast]
    refine ⟨by rw [hmod]; rfl, fun j hj => ?_⟩
    rw [hdiv] at hj
    rcases Nat.lt_succ_iff_lt_or_eq.mp hj with hlt | rfl
    · have hj' : j * t.ob.epb < r.co :=
        ((Nat.mul_le_mul_right _ hlt.le).trans (Nat.div_mul_le_self _ _)).trans_lt hc
      have hne : packAddr t r pos (j * t.ob.epb) ≠ packAddr t r pos c :=
        packAddr_ne hsize hspan hpos hj' hpos hc (.inr (by rw [Nat.mul_div_cancel _ (epb_pos _)]; exact hlt.ne))
      exact (read_write_other _ _ hne).trans (hbytes j hlt)
    · rw [hgroup]
      exact read_write_same _ _ hm
  · have hmod : (c + 1) % t.ob.epb ≠ 0 := mt (packEmits_iff _ _).mpr he
    have hdiv : (c + 1) / t.ob.epb = c / t.ob.epb := Nat.succ_div_of_mod_ne_zero hmod
    have hnext : (c + 1) % t.ob.epb = c % t.ob.epb + 1 := by
      have h0 := Nat.div_add_mod c t.ob.epb
      have h1 := Nat.div_add_mod (c + 1) t.ob.epb
      rw [hdiv] at h1
      omega
    rw [packByteStep_of_keeps he]
    refine ⟨by rw [hor, hdiv, hnext], ?_⟩
    rw [BytesDone, hdiv]
    exact hbytes

/-- A PACK of another position leaves the bytes of this one alone. -/
theorem BytesDone.other {pos' c' lv' : Nat} (h : BytesDone t r lv m pos c) (hsize : sizeOk t r = true)
    (hspan : premiseH3 t r = true) (hpos : pos < r.n) (hc : c ≤ r.co) (hpos' : pos' < r.n) (hc' : c' < r.co)
    (hne : pos ≠ pos') : BytesDone t r lv (packByteStep t r pk' m pos' c' lv').2 pos c :=
  h.congr fun _ hx => packByteStep_read (packAddr_ne hsize hspan hpos (hx.trans_le hc) hpos' hc' (.inl hne))

/-- A position whose bytes stand in OUT reads back level by level (20_memory R64). -/
theorem BytesDone.packedElem (h : BytesDone t r lv m pos r.co) (hdvd : t.ob.epb ∣ r.co)
    (hlv : ∀ c, lv c < 2 ^ t.ob.bits) (hc : c < r.co) :
    packedElem m r.outBase.toNat t.ob (pos * r.co + c) = lv c := by
  have hslot : (pos * r.co + c) % t.ob.epb = c % t.ob.epb := by
    rw [Nat.add_mod, Nat.mod_eq_zero_of_dvd (hdvd.mul_left pos), Nat.zero_add, Nat.mod_mod]
  have hbyte := h _ (Nat.div_lt_div_of_lt_of_dvd hdvd hc)
  rw [packAddr_group hdvd] at hbyte
  have hlt : c % t.ob.epb < t.ob.epb := Nat.mod_lt _ (epb_pos _)
  calc Machine.packedElem m r.outBase.toNat t.ob (pos * r.co + c)
      = byteElem t.ob (c % t.ob.epb) (m.read (packAddr t r pos c)) := by rw [Machine.packedElem, hslot]; rfl
    _ = lv (c / t.ob.epb * t.ob.epb + c % t.ob.epb) := by
        rw [hbyte, byteElem_packByte (byteLevels_lt hlv _) hlt, byteLevels_getD _ _ _ hlt]
    _ = lv c := by rw [Nat.div_add_mod']

end Row

end Sys2Proof.Machine
end

section
/-! SUPPORT. The points of a call (40_host_commands R130 to R138): what has been computed when the sequencer stands at
each phase, carried by each micro-step to the next point, and at FINISH the whole output tensor. -/

namespace Sys2Proof.Machine

variable {t : Tag} {s : State} {m0 m1 : Memory}

theorem SameOperands.trans {r : Regs} {m m' m'' : Memory} (h : SameOperands t r m m') (h' : SameOperands t r m' m'') :
    SameOperands t r m m'' := fun q hq a ha => (h' q hq a ha).trans (h q hq a ha)

theorem convLevel_lt (t : Tag) (r : Regs) (m : Memory) (pos c : Nat) : convLevel t r m pos c < 2 ^ t.ob.bits :=
  fold_lt t r m c _

/-! ## Positions consumed and positions in hand -/

/-- The first `k` positions stand whole in region OUT, with the levels of the call launched over `m0`. -/
def RowsDone (t : Tag) (r : Regs) (m0 m : Memory) (k : Nat) : Prop :=
  ∀ p, p < k → BytesDone t r (convLevel t r m0 p) m p r.co

/-- The two positions a DOT2 works on, packed up to channel `c`. -/
def PairPacked (t : Tag) (r : Regs) (m0 : Memory) (pos : Nat) (m : Memory) (pk0 pk1 : Byte) (c : Nat) : Prop :=
  RowPacked t r (convLevel t r m0 (pos - 2)) m pk0 (pos - 2) c ∧
    RowPacked t r (convLevel t r m0 (pos - 1)) m pk1 (pos - 1) c

theorem RowsDone.succ {r : Regs} {m : Memory} {k : Nat} (h : RowsDone t r m0 m k)
    (hk : BytesDone t r (convLevel t r m0 k) m k r.co) : RowsDone t r m0 m (k + 1) := fun p hp => by
  rcases Nat.lt_succ_iff_lt_or_eq.mp hp with hlt | rfl
  · exact h p hlt
  · exact hk

/-- PACK of the accumulator of 40_host_commands R138 packs the level of the call. -/
theorem RowPacked.packAcc {r : Regs} {m : Memory} {pk : Byte} {pos c : Nat} {acc : Word}
    (h : RowPacked t r (convLevel t r m0 pos) m pk pos c) (hm : m.wf = true) (hsize : sizeOk t r = true)
    (hspan : premiseH3 t r = true) (hsame : SameOperands t r m0 m) (hpos : pos < r.n) (hc : c < r.co)
    (hacc : acc = convAcc t r m0 pos c) :
    RowPacked t r (convLevel t r m0 pos) (packByteStep t r pk m pos c (fold t r m c acc)).2
      (packByteStep t r pk m pos c (fold t r m c acc)).1 pos (c + 1) := by
  have hlevel : fold t r m c acc = convLevel t r m0 pos c := by
    rw [fold_congr hspan hsame hc, hacc]
    rfl
  rw [hlevel]
  exact h.pack hm hsize hspan (convLevel_lt t r m0 pos) hpos hc

/-- A pair of PACKs takes both positions to the next channel. -/
theorem packPair_packed {c : Nat} {a b : Word} (hok : PairOk t s.regs s.seq.pos c) (hm : s.mem.wf = true)
    (hsame : SameOperands t s.regs m0 s.mem) (ha : a = convAcc t s.regs m0 (s.seq.pos - 2) c)
    (hb : b = convAcc t s.regs m0 (s.seq.pos - 1) c)
    (h : PairPacked t s.regs m0 s.seq.pos s.mem s.pk0 s.pk1 c) :
    PairPacked t s.regs m0 s.seq.pos (packPair t c a b s).mem (packPair t c a b s).pk0 (packPair t c a b s).pk1
      (c + 1) := by
  obtain ⟨hrow0, hpk1, hbytes1⟩ := h
  obtain ⟨hsize, hspan, hdisj, htwo, hpos, hc⟩ := hok
  have hp0 : s.seq.pos - 2 < s.regs.n := by omega
  have hp1 : s.seq.pos - 1 < s.regs.n := by omega
  have hne : s.seq.pos - 2 ≠ s.seq.pos - 1 := by omega
  obtain ⟨hpk0', hbytes0'⟩ := hrow0.packAcc hm hsize hspan hsame hp0 hc ha
  have hsame' := hsame.trans (packByteStep_sameOperands (m := s.mem) (pk := s.pk0)
    (lv := fold t s.regs s.mem c a) hsize hspan hdisj hp0 hc)
  have hrow1 : RowPacked t s.regs (convLevel t s.regs m0 (s.seq.pos - 1)) (pack0 t (s.seq.pos - 2) c a s).mem s.pk1
      (s.seq.pos - 1) c := ⟨hpk1, hbytes1.other hsize hspan hp1 hc.le hp0 hc hne.symm⟩
  exact ⟨⟨hpk0', hbytes0'.other hsize hspan hp0 hc hp1 hc hne⟩,
    hrow1.packAcc (pack0_wf hm) hsize hspan hsame' hp1 hc hb⟩

/-! ## What each micro-step adds -/

/-- A DOT2 over the windows of its two positions packs both channels of both. -/
theorem dot2Step_packed (hcall : CallPoint t s) (hp : s.seq.phase = .dot2) (hm : s.mem.wf = true)
    (hsame : SameOperands t s.regs m0 s.mem) (hcol0 : s.col0 = window t s.regs m0 (s.seq.pos - 2))
    (hcol1 : s.col1 = window t s.regs m0 (s.seq.pos - 1))
    (h : PairPacked t s.regs m0 s.seq.pos s.mem s.pk0 s.pk1 s.seq.chi) :
    PairPacked t s.regs m0 s.seq.pos (dot2Step t s).mem (dot2Step t s).pk0 (dot2Step t s).pk1 (s.seq.chi + 2) := by
  obtain ⟨hok0, hok1⟩ := hcall.pairOk hp
  obtain ⟨hacc0, hacc1, hacc2, hacc3⟩ := dot2Seeded_acc t s
  rw [hcol0, dotColumn_window hok0.size hok0.spans hsame hok0.chan] at hacc0
  rw [hcol1, dotColumn_window hok0.size hok0.spans hsame hok0.chan] at hacc1
  rw [hcol0, dotColumn_window hok1.size hok1.spans hsame hok1.chan] at hacc2
  rw [hcol1, dotColumn_window hok1.size hok1.spans hsame hok1.chan] at hacc3
  have hhalf : PairPacked t s.regs m0 s.seq.pos (dot2Half t s).mem (dot2Half t s).pk0 (dot2Half t s).pk1
      (s.seq.chi + 1) := packPair_packed (s := dot2Seeded t s) hok0 hm hsame hacc0 hacc1 h
  have hsame' : SameOperands t s.regs m0 (dot2Half t s).mem :=
    hsame.trans (packPair_sameOperands (s := dot2Seeded t s) hok0)
  exact packPair_packed (s := dot2Half t s) hok1 (packPair_wf (s := dot2Seeded t s) hm) hsame' hacc2 hacc3 hhalf

/-- A DOT2 leaves the positions consumed before it alone. -/
theorem RowsDone.dot2Step (h : RowsDone t s.regs m0 s.mem (s.seq.pos - 2)) (hcall : CallPoint t s)
    (hp : s.seq.phase = .dot2) : RowsDone t s.regs m0 (dot2Step t s).mem (s.seq.pos - 2) := by
  obtain ⟨⟨hsize, hspan, -, htwo, hpos, hchan⟩, -, -, -, -, -, hchan'⟩ := hcall.pairOk hp
  refine fun p hlt => (h p hlt).congr fun c hc => read_dot2Step fun p' c' hp' hc' => ?_
  exact packAddr_ne hsize hspan (by omega) hc (by omega) (by omega) (.inl (by omega))

/-- The one PACK of a DOT1 takes the last position to the next channel. -/
theorem dot1Step_packed (hcall : CallPoint t s) (hp : s.seq.phase = .dot1) (hm : s.mem.wf = true)
    (hsame : SameOperands t s.regs m0 s.mem) (hcol0 : s.col0 = window t s.regs m0 (s.seq.pos - 1))
    (h : RowPacked t s.regs (convLevel t s.regs m0 (s.seq.pos - 1)) s.mem s.pk0 (s.seq.pos - 1) s.seq.chi) :
    RowPacked t s.regs (convLevel t s.regs m0 (s.seq.pos - 1)) (dot1Step t s).mem (dot1Step t s).pk0 (s.seq.pos - 1)
      (s.seq.chi + 1) := by
  obtain ⟨-, hpos, hodd, hchan, -⟩ := hcall.dot1Ready hp
  obtain ⟨hsize, -⟩ := hcall.premises
  have hacc : dot1 t s.regs s.mem s.seq.chi s.col0 = convAcc t s.regs m0 (s.seq.pos - 1) s.seq.chi := by
    rw [dot1, hcol0, dotColumn_window hsize hcall.premises.spans hsame hchan]
  exact h.packAcc hm hsize hcall.premises.spans hsame (by omega) hchan hacc

/-- A DOT1 leaves the positions consumed before it alone. -/
theorem RowsDone.dot1Step (h : RowsDone t s.regs m0 s.mem (s.seq.pos - 1)) (hcall : CallPoint t s)
    (hp : s.seq.phase = .dot1) : RowsDone t s.regs m0 (dot1Step t s).mem (s.seq.pos - 1) := by
  obtain ⟨-, hpos, hodd, hchan, -⟩ := hcall.dot1Ready hp
  obtain ⟨hsize, -⟩ := hcall.premises
  refine fun p hlt => (h p hlt).congr fun c hc => read_dot1Step ?_
  exact packAddr_ne hsize hcall.premises.spans (by omega) hc (by omega) hchan (.inl (by omega))

/-! ## The points of a call -/

/-- What the call launched over `m0` has computed when the sequencer stands at a phase. -/
def PointDone (t : Tag) (m0 : Memory) (s : State) : Prop :=
  match s.seq.phase with
  | .gather => (s.seq.fill = 1 → s.col0 = window t s.regs m0 (s.seq.pos - 1)) ∧
      RowsDone t s.regs m0 s.mem (s.seq.pos - s.seq.fill)
  | .dot2 => s.col0 = window t s.regs m0 (s.seq.pos - 2) ∧ s.col1 = window t s.regs m0 (s.seq.pos - 1) ∧
      RowsDone t s.regs m0 s.mem (s.seq.pos - 2) ∧ PairPacked t s.regs m0 s.seq.pos s.mem s.pk0 s.pk1 s.seq.chi
  | .dot1 => s.col0 = window t s.regs m0 (s.seq.pos - 1) ∧ RowsDone t s.regs m0 s.mem (s.seq.pos - 1) ∧
      RowPacked t s.regs (convLevel t s.regs m0 (s.seq.pos - 1)) s.mem s.pk0 (s.seq.pos - 1) s.seq.chi
  | .finish => RowsDone t s.regs m0 s.mem s.regs.n

theorem gather_pointDone (hcall : CallPoint t s) (hp : s.seq.phase = .gather) (hsame : SameOperands t s.regs m0 s.mem)
    (h : PointDone t m0 s) : PointDone t m0 (gather t s) := by
  simp only [PointDone, hp] at h
  obtain ⟨hcol, hrows⟩ := h
  obtain ⟨hpos, hfill, ⟨hpk0, hpk1⟩, -⟩ := hcall.gatherReady hp
  have hwin : ∀ p, window t s.regs s.mem p = window t s.regs m0 p :=
    window_congr hcall.premises.spans hsame hcall.premises.size hcall.premises.ci_pos
  have hseq := gather_seq t s
  unfold seqAfterGather at hseq
  split_ifs at hseq with hpair hlast
  · have hone : s.seq.fill = 1 := by omega
    rw [hone] at hrows
    simp only [PointDone, hseq, gather_regs, gather_mem, gather_pk0, gather_pk1, gather_col0, gather_col1, hone,
      Nat.one_ne_zero, if_false, hwin]
    exact ⟨hcol hone, rfl, hrows, rowPacked_zero hpk0, rowPacked_zero hpk1⟩
  · have hzero : s.seq.fill = 0 := by omega
    rw [hzero] at hrows
    simp only [PointDone, hseq, gather_regs, gather_mem, gather_pk0, gather_col0, hzero, if_true, hwin]
    exact ⟨rfl, hrows, rowPacked_zero hpk0⟩
  · have hzero : s.seq.fill = 0 := by omega
    rw [hzero] at hrows
    simp only [PointDone, hseq, gather_regs, gather_mem, gather_col0, hzero, if_true, hwin]
    exact ⟨fun _ => rfl, hrows⟩

theorem dot2Step_pointDone (hcall : CallPoint t s) (hp : s.seq.phase = .dot2) (hm : s.mem.wf = true)
    (hsame : SameOperands t s.regs m0 s.mem) (h : PointDone t m0 s) : PointDone t m0 (dot2Step t s) := by
  simp only [PointDone, hp] at h
  obtain ⟨hcol0, hcol1, hrows, hpair⟩ := h
  obtain ⟨-, htwo, -⟩ := hcall.dot2Ready hp
  have hrows' := hrows.dot2Step hcall hp
  have hpair' := dot2Step_packed hcall hp hm hsame hcol0 hcol1 hpair
  have hdone : s.seq.chi + 2 = s.regs.co → RowsDone t s.regs m0 (dot2Step t s).mem s.seq.pos := fun hrow => by
    rw [hrow] at hpair'
    obtain ⟨⟨-, hbytes0⟩, -, hbytes1⟩ := hpair'
    have hk : s.seq.pos - 2 + 1 = s.seq.pos - 1 := by omega
    have hboth := (hrows'.succ hbytes0).succ (by rw [hk]; exact hbytes1)
    rwa [hk, Nat.sub_add_cancel (by omega)] at hboth
  have hseq := dot2Step_seq t s
  unfold seqAfterDot2 at hseq
  split_ifs at hseq with hrow hend
  · simp only [PointDone, hseq, dot2Step_regs]
    exact hend ▸ hdone hrow
  · simp only [PointDone, hseq, dot2Step_regs, Nat.sub_zero]
    exact ⟨nofun, hdone hrow⟩
  · simp only [PointDone, hseq, dot2Step_regs, dot2Step_col0, dot2Step_col1]
    exact ⟨hcol0, hcol1, hrows', hpair'⟩

theorem dot1Step_pointDone (hcall : CallPoint t s) (hp : s.seq.phase = .dot1) (hm : s.mem.wf = true)
    (hsame : SameOperands t s.regs m0 s.mem) (h : PointDone t m0 s) : PointDone t m0 (dot1Step t s) := by
  simp only [PointDone, hp] at h
  obtain ⟨hcol0, hrows, hpacked⟩ := h
  obtain ⟨-, hpos, hodd, -⟩ := hcall.dot1Ready hp
  have hrows' := hrows.dot1Step hcall hp
  have hpacked' := dot1Step_packed hcall hp hm hsame hcol0 hpacked
  have hseq := dot1Step_seq t s
  unfold seqAfterDot1 at hseq
  split_ifs at hseq with hrow
  · simp only [PointDone, hseq, dot1Step_regs]
    rw [hrow] at hpacked'
    obtain ⟨-, hbytes⟩ := hpacked'
    have hall := hrows'.succ hbytes
    rwa [Nat.sub_add_cancel (by omega), hpos] at hall
  · simp only [PointDone, hseq, dot1Step_regs, dot1Step_col0]
    exact ⟨hcol0, hrows', hpacked'⟩

/-- A state of the call launched over the operands of `m0`, with every byte outside OUT as in `m1`. -/
structure InCall (t : Tag) (m0 m1 : Memory) (s : State) : Prop where
  call : CallPoint t s
  wf : s.mem.wf = true
  operands : SameOperands t s.regs m0 s.mem
  frame : ∀ a, (outSpan t s.regs).has a = false → s.mem.read a = m1.read a
  point : PointDone t m0 s

theorem InCall.microStep (h : InCall t m0 m1 s) (hp : s.seq.phase ≠ .finish) : InCall t m0 m1 (microStep t s) := by
  obtain ⟨hcall, hm, hsame, hframe, hpoint⟩ := h
  refine ⟨hcall.microStep hp, microStep_wf hm, ?_, fun a ha => ?_, ?_⟩
  · rw [microStep_regs]
    exact hsame.trans hcall.sameOperands
  · rw [microStep_regs] at ha
    exact (hcall.read_microStep_outside ha).trans (hframe a ha)
  · cases hphase : s.seq.phase with
    | gather =>
      simp only [Machine.microStep, hphase]
      exact gather_pointDone hcall hphase hsame hpoint
    | dot2 =>
      simp only [Machine.microStep, hphase]
      exact dot2Step_pointDone hcall hphase hm hsame hpoint
    | dot1 =>
      simp only [Machine.microStep, hphase]
      exact dot1Step_pointDone hcall hphase hm hsame hpoint
    | finish => exact absurd hphase hp

/-- A call's run ends by FINISH, from a point of the call. -/
theorem InCall.runCall_done {k : Nat} (h : InCall t m0 m1 s) (hb : s.status = .busy)
    (hdone : (runCall t k s).status = .done) :
    ∃ x, InCall t m0 m1 x ∧ x.seq.phase = .finish ∧ runCall t k s = finish x := by
  induction k generalizing s with
  | zero => cases hb.symm.trans hdone
  | succ k ih =>
    rw [runCall, if_pos hb] at hdone ⊢
    by_cases hp : s.seq.phase = .finish
    · have hfinish : Machine.microStep t s = finish s := by simp only [Machine.microStep, hp]
      rw [hfinish, runCall_not_busy t k (by exact nofun)]
      exact ⟨s, h, hp, rfl⟩
    · exact ih (h.microStep hp) (by rw [microStep_status, if_neg hp, hb]) hdone

/-- START's answer is the first point of the call over the memory START found. -/
theorem Premises.inCall (h : Premises t s) (hm : s.mem.wf = true) :
    InCall t s.mem (Machine.accept t s).mem (Machine.accept t s) where
  call := h.accept
  wf := accept_wf hm
  operands := h.accept_sameOperands
  frame _ _ := rfl
  point := ⟨nofun, fun _ hp => absurd hp (Nat.not_lt_zero _)⟩

theorem runCall_draws (t : Tag) (k : Nat) (s : State) : (runCall t k s).draws = s.draws := by
  induction k generalizing s with
  | zero => rfl
  | succ k ih =>
    rw [runCall]
    split
    · rw [ih, microStep_draws]
    · rfl

end Sys2Proof.Machine

open Sys2Proof Sys2Proof.Machine

/-- Settles O28: the call runs from its first point, which START's answer is, to its FINISH, where every position stands
in region OUT; outside OUT the memory is the one START left, with COLBUF forgotten. -/
theorem callComputesConv : Obligations.CallComputesConv := by
  intro i t s hi hm hst hsize hin hback
  have hprem : Premises t s := ⟨hsize, hin⟩
  have hexec : exec i s = .next (runCall t (callSteps s.regs) (accept t s)) :=
    (Laws.exec_conv hi s).trans
      (convCall_of_launch ((acceptsStart_iff _).mpr hst) (launch_accepts hsize hin hback))
  have hdone := runCall_accept_status hsize hin
  have hsame : SameOutside (accept t s) _ := runCall_same t (callSteps s.regs) (accept t s)
  have hdraws := runCall_draws t (callSteps s.regs) (accept t s)
  have hunseen := runCall_unseen t (callSteps s.regs) (accept t s)
  obtain ⟨x, ⟨-, hwf, -, hframe, hpoint⟩, hp, hrun⟩ := (hprem.inCall hm).runCall_done rfl hdone
  rw [hrun] at hexec hdone hsame hdraws hunseen
  have hregs : x.regs = s.regs := hsame.1
  simp only [PointDone, hp, hregs] at hpoint
  rw [hregs] at hframe
  have htop := premiseH3_span hprem.spans (colbuf_mem_callSpans t s.regs)
  refine ⟨finish x, hexec, hdone, hsame, hwf, hdraws, hunseen, fun pos c hpos hc => ?level, fun a ha => ?colbuf,
    fun a ha => ?frame⟩
  case level =>
    exact (hpoint pos hpos).packedElem (Nat.dvd_of_mod_eq_zero hprem.co_packs) (convLevel_lt t s.regs s.mem pos) hc
  case colbuf =>
    exact (hframe a (outSpan_has_of_colbuf hprem.disjoint ha)).trans (read_forgetSpan_inside htop ha)
  case frame => exact (hframe a ha.1).trans (read_forgetSpan_outside htop ha.2)
end

section
/-! SUPPORT. The opcode map counted (41_conv_modes R198). The 128 values of MODE[6:0] are eight rows of sixteen, one for
each FOLD bit and OB code, and a row holds the sixteen pairs of a WB and an IB code: nine pairs of legal codes, and seven
with a code 3. -/

namespace Sys2Proof

/-- The four codes of a width field. -/
def widthCodes : List (BitVec 2) := [0#2, 1#2, 2#2, 3#2]

/-- What the sixteen opcodes with a given FOLD bit and OB code decode to. -/
def opcodeRow (fold : Bool) (ob : BitVec 2) : List ModeDecode :=
  widthCodes.flatMap fun wb => widthCodes.map fun ib => modeDecode (BitVec.ofNat 32 (modeOpcode fold ob wb ib).toNat)

/-- The values of MODE[6:0], in order, are the opcodes of the eight rows. -/
theorem range_opcodes :
    List.range 128 = [false, true].flatMap fun fold => widthCodes.flatMap fun ob =>
      widthCodes.flatMap fun wb => widthCodes.map fun ib => (modeOpcode fold ob wb ib).toNat := by
  decide

theorem decodes_eq_rows :
    (List.range 128).map (fun n => modeDecode (BitVec.ofNat 32 n)) =
      [false, true].flatMap fun fold => widthCodes.flatMap fun ob => opcodeRow fold ob := by
  rw [range_opcodes]
  simp only [List.map_flatMap, List.map_map, Function.comp_def, opcodeRow]

/-- A decode is Legal with the policy. -/
def ModeDecode.hasFold (f : FoldPolicy) (d : ModeDecode) : Bool :=
  match d with
  | .legal t => t.fold == f
  | .reserved _ => false

/-- How many decodes are Legal with THR, Legal with ICN, Reserved(ThrOut8) and Reserved(WidthCode). -/
def modeTally (l : List ModeDecode) : Nat × Nat × Nat × Nat :=
  (l.countP (ModeDecode.hasFold .thr), l.countP (ModeDecode.hasFold .icn), l.count (.reserved .thrOut8),
    l.count (.reserved .widthCode))

theorem modeTally_nil : modeTally [] = 0 := rfl

theorem modeTally_append (l m : List ModeDecode) : modeTally (l ++ m) = modeTally l + modeTally m := by
  simp only [modeTally, List.countP_append, List.count_append, Prod.mk_add_mk]

/-- An OB code 3 makes the whole row reserved (30_encoding R97 (a)). -/
theorem modeTally_row_three (fold : Bool) : modeTally (opcodeRow fold 3#2) = (0, 0, 0, 16) := by
  cases fold <;> rfl

/-- THR with a 2-bit or 4-bit output: the nine pairs of legal codes are convolutions. -/
theorem modeTally_row_thr {b : Width} (hb : b ≠ .b8) : modeTally (opcodeRow false b.code) = (9, 0, 0, 7) := by
  cases b with
  | b2 | b4 => rfl
  | b8 => exact absurd rfl hb

/-- THR with 8-bit output: the nine pairs are reserved as well (30_encoding R97 (b)). -/
theorem modeTally_row_thrOut8 : modeTally (opcodeRow false Width.b8.code) = (0, 0, 9, 7) := rfl

/-- ICN takes all three output widths. -/
theorem modeTally_row_icn (b : Width) : modeTally (opcodeRow true b.code) = (0, 9, 0, 7) := by
  cases b <;> rfl

/-- Over the eight rows: `2 * 9`, `3 * 9`, `9` and `6 * 7 + 2 * 16`. -/
theorem modeTally_opcodes :
    modeTally ((List.range 128).map fun n => modeDecode (BitVec.ofNat 32 n)) = (18, 27, 9, 74) := by
  have hcodes : widthCodes = [Width.b2.code, Width.b4.code, Width.b8.code, 3#2] := rfl
  rw [decodes_eq_rows, hcodes]
  simp only [List.flatMap_cons, List.flatMap_nil, modeTally_append, modeTally_nil, modeTally_row_three,
    modeTally_row_thrOut8, modeTally_row_icn, modeTally_row_thr (b := .b2) nofun, modeTally_row_thr (b := .b4) nofun]
  rfl

end Sys2Proof

open Sys2Proof

/-- Settles O6: the four counts are the tally of the eight rows. -/
theorem opcodeCountsAddUp : Obligations.OpcodeCountsAddUp := by
  have htally := modeTally_opcodes
  simp only [modeTally, Prod.mk.injEq] at htally
  obtain ⟨hthr, hicn, hout8, hwidth⟩ := htally
  exact ⟨hthr, hicn, hout8, hwidth, by simp⟩
end

section
/-! SUPPORT. The MODE rows that end without a call (41_conv_modes R150, R196, R197): a reserved row raises FAULT and a
convolution whose channel counts fail raises SIZE_MISMATCH, each where a START is acted on. -/

namespace Sys2Proof.Machine

variable {t : Tag} {s : State}

theorem reservedMode_raises (ha : acceptsStart s.status = true) : reservedMode s = .next (raise .fault s) := by
  rw [reservedMode, if_pos ha]

/-- A whole call with failing channel counts ends where it began: the block is not BUSY, so no micro-step runs. -/
theorem convCall_sizeMismatch (ha : acceptsStart s.status = true) (hsize : sizeOk t s.regs = false) :
    convCall t s = .next (raise .sizeMismatch s) := by
  rw [convCall_of_launch ha (launch_sizeMismatch hsize), runCall_not_busy t _ (by exact nofun)]

end Sys2Proof.Machine

open Sys2Proof Sys2Proof.Machine

/-- Settles O22: each of the twelve is `exec`'s arm that answers `reservedMode`, which asks for STATE alone. -/
theorem reservedModesRaiseFault : Obligations.ReservedModesRaiseFault := by
  intro s z fold x y i hi hst
  have hrow : exec i s = reservedMode s := by
    simp only [List.mem_cons, List.not_mem_nil, or_false] at hi
    rcases hi with rfl | rfl | rfl | rfl | rfl | rfl | rfl | rfl | rfl | rfl | rfl | rfl <;> rfl
  exact hrow.trans (reservedMode_raises ((acceptsStart_iff _).mpr hst))

/-- Settles O24: a convolution is the whole call with its own constants, and the failing counts are `sizeOk`'s. -/
theorem convolutionsReportSizeMismatch : Obligations.ConvolutionsReportSizeMismatch := by
  intro i t s hi hst hcounts
  have hsize : sizeOk t s.regs = false := Bool.eq_false_iff.mpr fun h => hcounts ((sizeOk_iff t s.regs).mp h)
  exact (Laws.exec_conv hi s).trans (convCall_sizeMismatch ((acceptsStart_iff _).mpr hst) hsize)
end

section
/-! SUPPORT. The window builder (42_window_builder R213 to R225): what a window holds at a kernel position in bounds and
at one that is not, the accumulator of a window of zeros, the in-bounds positions counted axis by axis, and the packed
row the interior fast path copies. -/

namespace Sys2Proof.Machine

variable {t : Tag} {r : Regs} {m : Memory} {pos : Nat}

/-! ## A column element's kernel position and channel (42_window_builder R212) -/

section Index

variable {j : Nat} (hj : j < r.len)
include hj

theorem elemKy_lt : elemKy r j < r.k := by
  have hpix : j / r.ci < r.k * r.k := Nat.div_lt_of_lt_mul (hj.trans_eq (Nat.mul_assoc _ _ _))
  exact Nat.div_lt_of_lt_mul hpix

theorem elemKx_lt : elemKx r j < r.k := Nat.mod_lt _ (Nat.zero_lt_of_lt (elemKy_lt hj))

theorem elemC_lt : elemC r j < r.ci := by
  refine Nat.mod_lt _ (Nat.pos_of_ne_zero fun hci => ?_)
  simp [Regs.len, hci] at hj

end Index

/-! ## The window at a kernel position (42_window_builder R214, R215) -/

section Position

variable {ky kx c : Nat}

theorem windowAt_inside (h : inBounds r (originRow r pos + ky) (originCol r pos + kx) = true) :
    windowAt t r m pos ky kx c =
      (inElem t r m (originRow r pos + ky).toNat (originCol r pos + kx).toNat c : Int) - (r.zIn : Int) := if_pos h

theorem windowAt_outside (h : inBounds r (originRow r pos + ky) (originCol r pos + kx) = false) :
    windowAt t r m pos ky kx c = 0 := if_neg (Bool.eq_false_iff.mp h)

end Position

/-! ## Windows of zeros -/

/-- A bias is already a signed 32-bit value (20_memory R70). -/
theorem s32_bias (r : Regs) (m : Memory) (c : Nat) : s32 (bias r m c) = bias r m c := by
  simp only [bias, memReadS32, s32_eq_bmod, Int.bmod_bmod]

theorem dotSum_of_zero (h : ∀ j, j < r.len → windowElem t r m pos j = 0) (c : Nat) : dotSum t r m pos c = 0 :=
  List.sum_eq_zero fun p hp => by
    obtain ⟨j, hj, rfl⟩ := List.mem_map.mp hp
    rw [h j (List.mem_range.mp hj), mul_zero]

/-- A window of zeros leaves the bias, whatever the weights (40_host_commands R138). -/
theorem convAcc_of_zero (h : ∀ j, j < r.len → windowElem t r m pos j = 0) (c : Nat) :
    (convAcc t r m pos c).toInt = bias r m c := by
  rw [convAcc, dotSum_of_zero h, add_zero, word32_toInt, s32_bias]

theorem windowElem_of_constant (hin : ∀ y x c, y < r.di → x < r.di → c < r.ci → inElem t r m y x c = r.zIn) {j : Nat}
    (hj : j < r.len) : windowElem t r m pos j = 0 := by
  rw [windowElem]
  cases h : inBounds r (originRow r pos + elemKy r j) (originCol r pos + elemKx r j) with
  | false => exact windowAt_outside h
  | true =>
    obtain ⟨hy, hx⟩ := toNat_lt_of_inBounds h
    rw [windowAt_inside h, hin _ _ _ hy hx (elemC_lt hj), sub_self]

/-! ## In-bounds positions, axis by axis (42_window_builder R225) -/

/-- Whether one coordinate of an input pixel is in bounds. -/
def onAxis (r : Regs) (i : Int) : Bool := decide (0 ≤ i) && decide (i < (r.di : Int))

theorem inBounds_eq_onAxis (r : Regs) (iy ix : Int) : inBounds r iy ix = (onAxis r iy && onAxis r ix) := by
  simp only [inBounds, onAxis, Bool.and_assoc]

theorem countP_onAxis (r : Regs) (o : Int) (n : Nat) :
    (List.range n).countP (fun i : Nat => onAxis r (o + (i : Int))) = (min (r.di : Int) (o + n) - max 0 o).toNat := by
  induction n with
  | zero =>
    rw [List.range_zero, List.countP_nil]
    omega
  | succ n ih =>
    rw [List.range_succ, List.countP_append, ih, List.countP_singleton]
    simp only [onAxis, Bool.and_eq_true, decide_eq_true_eq]
    split <;> omega

theorem countP_onAxis_eq_inBoundsCount (r : Regs) (o : Int) :
    (List.range r.k).countP (fun i : Nat => onAxis r (o + (i : Int))) = inBoundsCount r o := countP_onAxis r o r.k

theorem inBoundsCount_eq (r : Regs) (o : Int) :
    (inBoundsCount r o : Int) = max 0 (min (r.di : Int) (o + r.k) - max 0 o) := by
  rw [inBoundsCount, Int.toNat_eq_max, max_comm]

/-- A test that is one test of the row and one of the column counts as the product of the two counts. -/
theorem sum_countP_and {α β : Type} (p : α → Bool) (q : β → Bool) (rows : List α) (cols : List β) :
    (rows.map (fun y => cols.countP (fun x => p y && q x))).sum = rows.countP p * cols.countP q := by
  induction rows with
  | nil => simp
  | cons y rows ih =>
    rw [List.map_cons, List.sum_cons, ih, List.countP_cons]
    cases p y with
    | false => simp
    | true => simp [Nat.succ_mul, Nat.add_comm]

/-- The kernel positions read as integers one by one are the list of their casts. -/
theorem range_as_int (n : Nat) :
    (do let i ← List.range n; pure (i : Int)) = (List.range n).map (fun i : Nat => (i : Int)) :=
  List.flatMap_pure_eq_map _ _

theorem sum_countP_inBounds (r : Regs) (oy ox : Int) :
    ((List.range r.k).map (fun ky : Nat => (List.range r.k).countP (fun kx : Nat =>
      inBounds r (oy + (ky : Int)) (ox + (kx : Int))))).sum = inBoundsCount r oy * inBoundsCount r ox := by
  simp only [inBounds_eq_onAxis]
  rw [sum_countP_and (fun ky : Nat => onAxis r (oy + ky)) (fun kx : Nat => onAxis r (ox + kx)),
    countP_onAxis_eq_inBoundsCount, countP_onAxis_eq_inBoundsCount]

/-! ## The interior fast path (42_window_builder R218, R219) -/

theorem bandOf_eq_inside {o : Int} : bandOf r o = .inside ↔ 0 ≤ o ∧ o + (r.k : Int) ≤ (r.di : Int) := by
  unfold bandOf
  split
  · simp only [reduceCtorEq, false_iff]
    omega
  · split
    · simp only [reduceCtorEq, false_iff]
      omega
    · simp only [true_iff]
      omega

/-- In band middle × mid no kernel position is padding. -/
theorem inBounds_of_inside (hrow : bandOf r (originRow r pos) = .inside) (hcol : bandOf r (originCol r pos) = .inside)
    {ky kx : Nat} (hy : ky < r.k) (hx : kx < r.k) :
    inBounds r (originRow r pos + ky) (originCol r pos + kx) = true := by
  rw [bandOf_eq_inside] at hrow hcol
  simp only [inBounds, Bool.and_eq_true, decide_eq_true_eq]
  omega

/-- Elements counted from a whole byte of a packed tensor are elements of the tensor (20_memory R64). -/
theorem packedElem_from_byte (m : Memory) (base i : Nat) {b : Width} {n : Nat} (hn : b.epb ∣ n) :
    packedElem m (base + n / b.epb) b i = packedElem m base b (n + i) := by
  obtain ⟨q, rfl⟩ := hn
  rw [packedElem, packedElem, Nat.mul_add_mod, Nat.mul_div_cancel_left _ (epb_pos b), Nat.mul_add_div (epb_pos b),
    Nat.add_assoc]

/-- Element `x` of the copied row is the input element it stands for: a row of `DI*CI` elements runs on through its
pixels. -/
theorem packedElem_fastRowAddr (hci : r.ci % t.ib.epb = 0) (ky x : Nat) :
    packedElem m (fastRowAddr t r pos ky) t.ib x =
      inElem t r m ((originRow r pos).toNat + ky) ((originCol r pos).toNat + x / r.ci) (x % r.ci) := by
  rw [fastRowAddr, packed_size, packedElem_from_byte m _ x ((Nat.dvd_of_mod_eq_zero hci).mul_left _), inElem]
  congr 1
  rw [← Nat.add_assoc _ _ (x / r.ci), Nat.add_mul _ (x / r.ci), Nat.add_assoc, Nat.div_add_mod']

theorem windowElem_row (hrow : bandOf r (originRow r pos) = .inside) (hcol : bandOf r (originCol r pos) = .inside)
    {ky x : Nat} (hy : ky < r.k) (hx : x < r.k * r.ci) :
    windowElem t r m pos (ky * r.k * r.ci + x) =
      (inElem t r m ((originRow r pos).toNat + ky) ((originCol r pos).toNat + x / r.ci) (x % r.ci) : Int) - r.zIn := by
  have hc : x % r.ci < r.ci := Nat.mod_lt _ (Nat.pos_of_lt_mul_left hx)
  have hkx : x / r.ci < r.k := Nat.div_lt_of_lt_mul (hx.trans_eq (Nat.mul_comm _ _))
  have hidx : ky * r.k * r.ci + x = (ky * r.k + x / r.ci) * r.ci + x % r.ci := by
    rw [Nat.add_mul, Nat.add_assoc, Nat.div_add_mod']
  rw [hidx, windowElem_index t m pos hkx hc, windowAt_inside (inBounds_of_inside hrow hcol hy hkx),
    Int.toNat_add_nat (bandOf_eq_inside.mp hrow).1, Int.toNat_add_nat (bandOf_eq_inside.mp hcol).1]

end Sys2Proof.Machine

open Sys2Proof Sys2Proof.Machine

/-- Settles O39: an inside band bounds its whole axis, and both the copied row and the window read the tensor's elements
from `((iy0 + ky)*DI + ix0)*CI` on, a whole number of bytes. -/
theorem fastPathEqualsTheWindow : Obligations.FastPathEqualsTheWindow := by
  intro t r m pos ky hci hrow hcol hy
  refine ⟨fun kx hx => inBounds_of_inside hrow hcol hy hx, List.map_congr_left fun x hx => ?_⟩
  rw [packedElem_fastRowAddr hci, windowElem_row hrow hcol hy (List.mem_range.mp hx)]

/-- Settles O40: in bounds the difference to `Z_IN` is 0, out of bounds the padding is 0. -/
theorem inputAtZeroPointLeavesTheBias : Obligations.InputAtZeroPointLeavesTheBias := by
  intro t r m hin pos c
  have hzero : ∀ j, j < r.len → windowElem t r m pos j = 0 := fun j hj => windowElem_of_constant hin hj
  exact ⟨hzero, convAcc_of_zero hzero c⟩

/-- Settles O41: every element of the column is at one of the kernel positions, all of them padding. -/
theorem paddedWindowLeavesTheBias : Obligations.PaddedWindowLeavesTheBias := by
  intro t r m pos hout
  exact convAcc_of_zero fun j hj => windowAt_outside (hout _ _ (elemKy_lt hj) (elemKx_lt hj))

/-- Settles O42: a window element is a difference of two bytes or 0, which 16 bits hold. -/
theorem windowValuesFitTheirElements : Obligations.WindowValuesFitTheirElements := by
  intro t r m pos j hj
  obtain ⟨hlo, hhi⟩ := windowElem_range t r m pos j
  exact ⟨hlo, hhi, colElem_window t m pos hj⟩

/-- Settles O43: the in-bounds test is one test of the row and one of the column, so the count is a product, and along an
axis each kernel position adds 1 exactly while it is inside the clamped width. -/
theorem inBoundsCountIsTheClampedWidth : Obligations.InBoundsCountIsTheClampedWidth := by
  intro t r m pos
  refine ⟨?count, fun ky kx c => windowAt_outside, inBoundsCount_eq r⟩
  rw [← inBoundsCount_eq, ← inBoundsCount_eq, ← Nat.cast_mul, ← sum_countP_inBounds]
  simp only [range_as_int, List.map_map, List.countP_map, Function.comp_def]
end

section
/-! SUPPORT. The dot-product engine (43_dot_product R244 to R254): DOT2 as four accumulators of DOT1, the accumulator as
the bias plus one exact sum, and when every product of that sum is 0. -/

namespace Sys2Proof.Machine

/-- The blocked engine is four scalar ones, two channels against two columns (43_dot_product R248). -/
theorem dot2_eq_dot1 (t : Tag) (r : Regs) (m : Memory) (c : Nat) (x y : List Elem) :
    dot2 t r m c x y =
      { a0 := dot1 t r m c x, a1 := dot1 t r m c y, a2 := dot1 t r m (c + 1) x, a3 := dot1 t r m (c + 1) y } :=
  dot2_eq t r m c x y

theorem dot1_toInt (t : Tag) (r : Regs) (m : Memory) (c : Nat) (x : List Elem) :
    (dot1 t r m c x).toInt = s32 (bias r m c + columnSum t r m c x) := by
  rw [dot1, dotColumn_eq, word32_toInt]

variable {t : Tag} {r : Regs} {m : Memory} {c : Nat} {x : List Elem}

theorem columnSum_of_zero_products (h : ∀ j, j < r.len → corrWeight t r m c j * colElem x j = 0) :
    columnSum t r m c x = 0 :=
  List.sum_eq_zero fun p hp => by
    obtain ⟨j, hj, rfl⟩ := List.mem_map.mp hp
    exact h j (List.mem_range.mp hj)

/-- Products that all vanish leave the bias, which the wrap keeps since it is a signed 32-bit value already. -/
theorem dot1_of_zero_products (h : ∀ j, j < r.len → corrWeight t r m c j * colElem x j = 0) :
    (dot1 t r m c x).toInt = bias r m c := by
  rw [dot1_toInt, columnSum_of_zero_products h, add_zero, s32_bias]

theorem dot1_of_zero_column (hx : ∀ j, j < r.len → colElem x j = 0) (c : Nat) :
    (dot1 t r m c x).toInt = bias r m c :=
  dot1_of_zero_products fun j hj => by rw [hx j hj, mul_zero]

theorem corrWeight_of_weight_eq_zw {j : Nat} (h : weight t r m c j = zw t r m c) : corrWeight t r m c j = 0 := by
  rw [corrWeight, h, sub_self]

theorem dot1_of_weights_at_zw (hw : ∀ j, j < r.len → weight t r m c j = zw t r m c) (x : List Elem) :
    (dot1 t r m c x).toInt = bias r m c :=
  dot1_of_zero_products fun j hj => by rw [corrWeight_of_weight_eq_zw (hw j hj), zero_mul]

end Sys2Proof.Machine

open Sys2Proof Sys2Proof.Machine

/-- Settles O35: the four lanes of the blocked loop never meet, and each wraps its exact sum once. -/
theorem blockedAndScalarDotAgree : Obligations.BlockedAndScalarDotAgree := by
  intro t r m c x y
  rw [dot2_eq_dot1]
  exact ⟨rfl, rfl, rfl, rfl, dot1_toInt t r m c x⟩

/-- Settles O36: in DOT1 every product has a factor 0, and DOT2 is four times DOT1. -/
theorem zeroColumnLeavesTheBias : Obligations.ZeroColumnLeavesTheBias := by
  intro t r m c x y hx
  have hbias : ∀ c, (dot1 t r m c x).toInt = bias r m c := dot1_of_zero_column hx
  simp only [dot2_eq_dot1]
  exact ⟨hbias c, hbias c, hbias (c + 1), hbias c, hbias (c + 1)⟩

/-- Settles O37: every corrected weight of the channel is 0, whether it is the first or the second channel of DOT2. -/
theorem weightsAtZeroPointLeaveTheBias : Obligations.WeightsAtZeroPointLeaveTheBias := by
  intro t r m c x y hw
  have hbias : ∀ x, (dot1 t r m c x).toInt = bias r m c := dot1_of_weights_at_zw hw
  simp only [dot2_eq_dot1]
  refine ⟨hbias x, hbias x, hbias y, ?second⟩
  rintro c' rfl
  exact ⟨hbias x, hbias y⟩
end

section
/-! SUPPORT. The two folding policies (44_requant_pack R270 to R286): the threshold fold as a count of thresholds, with
its split point when the table is sorted, and the scale/shift fold as one floored division clamped to the slot, with
each of its stages non-decreasing while the multiplier is not negative. -/

namespace Sys2Proof.Machine

variable {t : Tag} {r : Regs} {m : Memory} {c : Nat}

theorem fold_of_thr (hf : t.fold = .thr) (acc : Word) : fold t r m c acc = foldThr t r m c acc.toInt := by
  rw [fold, hf]

theorem fold_of_icn (hf : t.fold = .icn) (acc : Word) :
    fold t r m c acc = icnLevel t.ob acc.toInt (mul r m c) (shf r m c) r.zOut := by
  rw [fold, hf, foldIcn]

/-! ## Threshold folding (44_requant_pack R272, R273) -/

theorem foldThr_le (acc : Int) : foldThr t r m c acc ≤ thresholdCount t.ob :=
  List.countP_le_length.trans_eq List.length_range

/-- Whoever exceeds a threshold, a greater accumulator exceeds it too, so no sorting is needed. -/
theorem foldThr_mono {a b : Int} (h : a ≤ b) : foldThr t r m c a ≤ foldThr t r m c b :=
  List.countP_mono_left fun j _ hj => by
    rw [decide_eq_true_eq] at hj ⊢
    exact hj.trans_le h

/-- A test that holds below each number it holds at is counted up to its first failure. -/
theorem lt_countP_range_iff {p : Nat → Bool} {n j : Nat} (hp : ∀ i j, i ≤ j → j < n → p j = true → p i = true)
    (hj : j < n) : j < (List.range n).countP p ↔ p j = true := by
  obtain ⟨k, rfl⟩ : ∃ k, n = j + k := ⟨n - j, by omega⟩
  rw [List.range_add, List.countP_append]
  cases h : p j with
  | true =>
    have hbelow : (List.range j).countP p = j := by
      rw [List.countP_eq_length.mpr fun i hi => hp i j (List.mem_range.mp hi).le hj h, List.length_range]
    have habove : 0 < ((List.range k).map (j + ·)).countP p :=
      List.countP_pos_iff.mpr ⟨j, List.mem_map.mpr ⟨0, List.mem_range.mpr (by omega), rfl⟩, h⟩
    simp only [iff_true]
    omega
  | false =>
    have hbelow : (List.range j).countP p ≤ j := List.countP_le_length.trans_eq List.length_range
    have habove : ((List.range k).map (j + ·)).countP p = 0 := by
      refine List.countP_eq_zero.mpr fun i hi hpi => ?_
      obtain ⟨d, hd, rfl⟩ := List.mem_map.mp hi
      have hd := List.mem_range.mp hd
      exact Bool.false_ne_true (h.symm.trans (hp j (j + d) (by omega) (by omega) hpi))
    simp only [Bool.false_eq_true, iff_false]
    omega

/-- On a sorted table the level is above `j` exactly when the accumulator exceeds threshold `j`. -/
theorem lt_foldThr_iff (hsorted : ∀ i j, i ≤ j → j < thresholdCount t.ob → thr t r m c i ≤ thr t r m c j) {j : Nat}
    (hj : j < thresholdCount t.ob) (acc : Int) : j < foldThr t r m c acc ↔ thr t r m c j < acc := by
  rw [foldThr, lt_countP_range_iff ?below hj, decide_eq_true_eq, gt_iff_lt]
  case below =>
    intro i j hij hj hacc
    rw [decide_eq_true_eq] at hacc ⊢
    exact (hsorted i j hij hj).trans_lt hacc

/-! ## Arithmetic of the scale/shift fold (00_scope R10, 30_encoding R101) -/

theorem s32_of_range {v : Int} (hlo : -2147483648 ≤ v) (hhi : v ≤ 2147483647) : s32 v = v := by
  rw [s32]
  omega

theorem s32_toInt (w : Word) : s32 w.toInt = w.toInt :=
  s32_of_range (BitVec.le_toInt w) (Int.le_sub_one_of_lt BitVec.toInt_lt)

@[simp] theorem shl_zero (v : Int) : shl v 0 = v := by rw [shl, pow_zero, mul_one]

theorem shl_mono {a b : Int} (n : Nat) (h : a ≤ b) : shl a n ≤ shl b n :=
  mul_le_mul_of_nonneg_right h (by positivity)

theorem sra_mono {a b : Int} (n : Nat) (h : a ≤ b) : sra a n ≤ sra b n := Int.ediv_le_ediv (by positivity) h

/-- Two arithmetic right shifts are one, with no rounding between them (44_requant_pack R286). -/
theorem sra_sra (v : Int) (n k : Nat) : sra (sra v n) k = v / 2 ^ (n + k) := by
  rw [sra, sra, Int.ediv_ediv_of_nonneg (by positivity), ← pow_add]

theorem shiftSplit_of_neg {n : Int} (h : n < 0) : shiftSplit n = ((-n).toNat, 0) := if_pos h

theorem shiftSplit_of_nonneg {n : Int} (h : ¬n < 0) : shiftSplit n = (0, n.toNat) := if_neg h

theorem clamp_mono {v w : Int} (lo hi : Int) (h : v ≤ w) : clamp v lo hi ≤ clamp w lo hi :=
  max_le_max_left _ (min_le_min_left _ h)

/-! ## Scale/shift folding (44_requant_pack R274 to R279) -/

theorem icnPre_of_neg {n : Int} (h : n < 0) (acc : Int) : icnPre acc n = s32 (acc * 2 ^ (-n).toNat) := by
  rw [icnPre, shiftSplit_of_neg h, shl]

theorem icnPre_of_nonneg {n : Int} (h : ¬n < 0) (acc : Int) : icnPre acc n = s32 acc := by
  rw [icnPre, shiftSplit_of_nonneg h, shl_zero]

/-- The high word and the right shift are one floored division of the product (44_requant_pack R286). -/
theorem icnValue_eq (acc m n : Int) (zOut : Nat) :
    icnValue acc m n zOut = icnPre acc n * m / 2 ^ (32 + (shiftSplit n).2) + zOut := by
  rw [icnValue, icnHi, sra_sra]

/-- The clamp leaves nothing negative, so the level as a number is the clamped value itself. -/
theorem icnLevel_cast (ob : Width) (acc m n : Int) (zOut : Nat) :
    (icnLevel ob acc m n zOut : Int) = max 0 (min (2 ^ ob.bits - 1) (icnValue acc m n zOut)) :=
  Int.toNat_of_nonneg (le_max_left _ _)

/-- The product of two signed 32-bit values (44_requant_pack R276). -/
theorem mul_range_of_s32 {x y : Int} (hx : -2147483648 ≤ x ∧ x ≤ 2147483647) (hy : -2147483648 ≤ y ∧ y ≤ 2147483647) :
    -(4611686018427387904 - 2147483648) ≤ x * y ∧ x * y ≤ 4611686018427387904 := by
  obtain ⟨hxlo, hxhi⟩ := hx
  obtain ⟨hylo, hyhi⟩ := hy
  constructor
  · linarith [mul_nonneg (sub_nonneg.mpr hxlo) (sub_nonneg.mpr hylo),
      mul_nonneg (sub_nonneg.mpr hxhi) (sub_nonneg.mpr hyhi)]
  · linarith [mul_nonneg (sub_nonneg.mpr hxlo) (sub_nonneg.mpr hyhi),
      mul_nonneg (sub_nonneg.mpr hxhi) (sub_nonneg.mpr hylo)]

/-! ## Monotonicity of the stages (44_requant_pack R285) -/

/-- Between two shifted accumulators in range nothing wraps, so the pre-shift is the shift and keeps the order. -/
theorem icnPre_mono {a b n : Int} (ha : -2147483648 ≤ shl a (shiftSplit n).1)
    (hb : shl b (shiftSplit n).1 ≤ 2147483647) (hab : a ≤ b) : icnPre a n ≤ icnPre b n := by
  have hshl := shl_mono (shiftSplit n).1 hab
  rwa [icnPre, icnPre, s32_of_range ha (hshl.trans hb), s32_of_range (ha.trans hshl) hb]

theorem icnValue_mono {a b m n : Int} (hm : 0 ≤ m) (hpre : icnPre a n ≤ icnPre b n) (zOut : Nat) :
    icnValue a m n zOut ≤ icnValue b m n zOut :=
  add_le_add_left (sra_mono _ (sra_mono _ (mul_le_mul_of_nonneg_right hpre hm))) _

theorem icnLevel_mono {a b m n : Int} (ob : Width) (hm : 0 ≤ m) (hpre : icnPre a n ≤ icnPre b n) (zOut : Nat) :
    icnLevel ob a m n zOut ≤ icnLevel ob b m n zOut :=
  Int.toNat_le_toNat (clamp_mono _ _ (icnValue_mono hm hpre zOut))

end Sys2Proof.Machine

open Sys2Proof Sys2Proof.Machine

/-- Settles O44: a count of at most `2^OB - 1` thresholds, or a value clamped there. -/
theorem levelsFitTheirSlot : Obligations.LevelsFitTheirSlot := fold_lt

/-- Settles O45: the level is above `j` exactly when threshold `j` is exceeded, which fixes it from both sides. -/
theorem sortedThresholdLevelIsTheFirstNotExceeded : Obligations.SortedThresholdLevelIsTheFirstNotExceeded := by
  intro t r m c acc hf hsorted lv hlv
  have hlt : ∀ j, j < 2 ^ t.ob.bits - 1 → (j < foldThr t r m c acc.toInt ↔ thr t r m c j < acc.toInt) :=
    fun j hj => lt_foldThr_iff hsorted hj acc.toInt
  have htop : foldThr t r m c acc.toInt ≤ 2 ^ t.ob.bits - 1 := foldThr_le acc.toInt
  rw [fold_of_thr hf]
  constructor
  · rintro rfl
    exact ⟨fun j hj => (hlt j (hj.trans_le htop)).mp hj, fun h => not_lt.mp fun hex => lt_irrefl _ ((hlt _ h).mpr hex)⟩
  · rintro ⟨hbelow, hat⟩
    refine le_antisymm (not_lt.mp fun habove => ?above) (not_lt.mp fun hless => ?less)
    case above =>
      have h : lv < 2 ^ t.ob.bits - 1 := habove.trans_le htop
      exact (hat h).not_gt ((hlt lv h).mp habove)
    case less => exact lt_irrefl _ ((hlt _ (hless.trans_le hlv)).mpr (hbelow _ hless))

/-- Settles O46: each threshold is counted for the greater accumulator if it is for the lesser. -/
theorem thresholdLevelIsMonotone : Obligations.ThresholdLevelIsMonotone := by
  intro t r m c a b hf hab
  rw [fold_of_thr hf, fold_of_thr hf]
  exact foldThr_mono hab

/-- Settles O47: the two right shifts are one floored division, and the sign of `Shf(c)` decides which shift is 0. -/
theorem icnLevelIsOneFlooredDivision : Obligations.IcnLevelIsOneFlooredDivision := by
  intro t r m c acc hf
  rw [fold_of_icn hf, icnLevel_cast, icnValue_eq]
  split
  next hneg => rw [icnPre_of_neg hneg, shiftSplit_of_neg hneg, Nat.add_zero]
  next hnonneg => rw [icnPre_of_nonneg hnonneg, shiftSplit_of_nonneg hnonneg]

/-- Settles O48: nothing is shifted or wrapped, and `2^30 / 2^32` is a quarter. -/
theorem icnAnchorIsShiftByTwo : Obligations.IcnAnchorIsShiftByTwo := by
  intro t r m c acc hf hshf hmul
  have hhi : icnHi acc.toInt (mul r m c) (shf r m c) = acc.toInt / 4 := by
    rw [icnHi, hmul, hshf, icnPre_of_nonneg (lt_irrefl 0), s32_toInt, sra]
    omega
  have hvalue : icnValue acc.toInt (mul r m c) (shf r m c) r.zOut = acc.toInt / 4 + r.zOut := by
    rw [icnValue, hhi, hshf, shiftSplit_of_nonneg (lt_irrefl 0), sra, Int.toNat_zero, pow_zero, Int.ediv_one]
  refine ⟨hhi, ?_⟩
  rw [fold_of_icn hf, icnLevel_cast, hvalue]

/-- Settles O49: without a wrap the pre-shift keeps the order, and every later stage is non-decreasing. -/
theorem icnLevelIsMonotone : Obligations.IcnLevelIsMonotone := by
  intro t r m c a b hf hmul ha hb hab
  rw [fold_of_icn hf, fold_of_icn hf]
  exact icnLevel_mono t.ob hmul (icnPre_mono ha hb hab) r.zOut

/-- Settles O50: both factors are signed 32-bit values, and the high word is the floor of the bounded product. -/
theorem multiplyHighStaysInRange : Obligations.MultiplyHighStaysInRange := by
  intro r m c acc
  obtain ⟨hlo, hhi⟩ : -(4611686018427387904 - 2147483648) ≤ icnPre acc.toInt (shf r m c) * mul r m c ∧
      icnPre acc.toInt (shf r m c) * mul r m c ≤ 4611686018427387904 :=
    mul_range_of_s32 (s32_range _) (s32_range _)
  refine ⟨hlo, hhi, ?_⟩
  rw [icnHi, sra]
  omega
end

section
/-! SUPPORT. FAULT (60_exceptions R304, R306): no instruction runs in it, its register file is that of any STATE outside
BUSY, and of the steps that write STATE only reset is one it takes. -/

namespace Sys2Proof.Machine

variable {s u : State}

theorem exec_fault (i : Instr) (hf : s.status = .fault) : exec i s = .next s :=
  exec_not_accepting i (by rw [hf]; rfl)

/-- START is not acted on in FAULT and FINISH is a micro-step of BUSY, so what is left of the writers of STATE is reset
(10_state R30, 60_exceptions R306). -/
theorem reset_of_step_leaves_fault (hf : s.status = .fault) (h : step s = .next u) (hne : u.status ≠ .fault) :
    ∃ rest, s.pending = .reset :: rest := by
  have hnostart : acceptsStart s.status ≠ true := by
    rw [hf]
    exact Bool.false_ne_true
  rcases stateIsWrittenOnlyByStartFinishReset s u h (hf.symm ▸ hne) with
    ⟨rest, hp, -⟩ | ⟨hstart, -⟩ | ⟨hstart, -⟩ | ⟨hbusy, -⟩
  · exact ⟨rest, hp⟩
  · exact absurd hstart hnostart
  · exact absurd hstart hnostart
  · cases hf.symm.trans hbusy

/-- Reset is taken in every STATE (70_reset R330). -/
theorem step_reset {rest : List HostOp} (hp : s.pending = .reset :: rest) :
    step s = .next (resetBlock { s with pending := rest }) := by
  simp only [step, fetch, hp]

end Sys2Proof.Machine

open Sys2Proof Sys2Proof.Machine

/-- Settles O27: neither STATE is one a START is acted on in. -/
theorem nothingRunsInBusyOrFault : Obligations.NothingRunsInBusyOrFault := by
  rintro i s (hb | hf)
  · exact exec_busy i hb
  · exact exec_fault i hf

/-- Settles O56: a command is an instruction, which FAULT does not run; the block's turn and the register accesses do
there what they do in every STATE but BUSY. -/
theorem faultIsStickyUntilReset : Obligations.FaultIsStickyUntilReset := by
  intro s hf
  have hb : s.status ≠ .busy := by
    rw [hf]
    exact nofun
  refine ⟨?cmd, ?turn, ?read, ?write, ?code, fun u => reset_of_step_leaves_fault hf, ?reset⟩
  case cmd =>
    intro v rest hp
    rw [step_wr_cmd hp]
    exact exec_fault _ hf
  case turn =>
    intro rest hturn
    rw [step_of_turnLeaves hturn]
    exact blockStep_not_busy hb
  case read =>
    intro off rest hlt h4 hp
    obtain ⟨hread, -, -⟩ := registerReadHasNoSideEffect s off rest
    simpa only [ne_eq, hb, not_false_eq_true, and_true] using hread hlt h4 hp
  case write =>
    intro off v rest hlo hhi h4 hp
    have hwrite := writeReg_not_busy (s := { s with pending := rest }) off v hb
    exact ⟨(step_wr hp (by omega) h4 (by omega)).trans (congrArg _ hwrite), readReg_write_same _ v (by omega)⟩
  case code => rw [statusReadsItsCode s, hf]
  case reset => exact fun rest hp => ⟨_, step_reset hp, resetBlock_status _⟩
end

section
/-! SUPPORT. Reset (70_reset R330 to R333): what a register reads afterwards, and what each byte of data memory holds,
by whether a call was in progress. -/

namespace Sys2Proof.Machine

variable {t : Tag} {s : State} {a : Nat}

/-- A register reads from STATE and the register file only, and both are at their reset values. -/
theorem readReg_resetBlock (s : State) (off : Nat) : readReg (resetBlock s) off = 0#32 :=
  calc readReg (resetBlock s) off = readReg State.reset off := rfl
    _ = 0#32 := readReg_reset off

/-- 70_reset R331. -/
theorem memAfterReset_not_busy (hb : s.status ≠ .busy) : memAfterReset s = s.mem := by
  rw [memAfterReset, if_neg hb]

/-- In a call, reset forgets OUT, then COLBUF, both with the same draw (70_reset R333). -/
theorem memAfterReset_busy (hb : s.status = .busy) (hmode : modeDecode s.regs.modeW = .legal t) :
    memAfterReset s =
      (s.mem.forgetSpan s.draws (outSpan t s.regs).base (outSpan t s.regs).size).forgetSpan
        s.draws (colbufSpan s.regs).base (colbufSpan s.regs).size := by
  simp only [memAfterReset, hb, callTag_eq_some.mpr hmode, if_true]

theorem outSpan_mem_callSpans (t : Tag) (r : Regs) : outSpan t r ∈ callSpans t r := by simp [callSpans]

/-- Reset during a legal call leaves every byte outside OUT and COLBUF alone. -/
theorem Launchable.read_memAfterReset_untouched (h : Launchable t s) (hb : s.status = .busy)
    (ha : Untouched t s.regs a) : (memAfterReset s).read a = s.mem.read a := by
  obtain ⟨hout, hcolbuf⟩ := ha
  have hspans : premiseH3 t s.regs = true := h.premises.spans
  rw [memAfterReset_busy hb h.1,
    read_forgetSpan_outside (premiseH3_span hspans (colbuf_mem_callSpans t s.regs)) hcolbuf,
    read_forgetSpan_outside (premiseH3_span hspans (outSpan_mem_callSpans t s.regs)) hout]

/-- Reset during a legal call leaves every byte of OUT and COLBUF free. -/
theorem Launchable.read_memAfterReset_forgotten (h : Launchable t s) (hb : s.status = .busy)
    (ha : (outSpan t s.regs).has a = true ∨ (colbufSpan s.regs).has a = true) :
    (memAfterReset s).read a = Config.freeByte s.draws a := by
  have hout := premiseH3_span h.premises.spans (outSpan_mem_callSpans t s.regs)
  have hcolbuf := premiseH3_span h.premises.spans (colbuf_mem_callSpans t s.regs)
  rw [memAfterReset_busy hb h.1]
  by_cases hin : (colbufSpan s.regs).has a = true
  · exact read_forgetSpan_inside hcolbuf hin
  · rw [read_forgetSpan_outside hcolbuf (Bool.eq_false_iff.mpr hin)]
    exact read_forgetSpan_inside hout (ha.resolve_right hin)

end Sys2Proof.Machine

open Sys2Proof Sys2Proof.Machine

/-- Settles O58: the step is `resetBlock`, and its memory is `memAfterReset`, which forgets the two spans of a call in
progress and nothing else. -/
theorem resetClearsTheRegisters : Obligations.ResetClearsTheRegisters := by
  intro s rest hp
  refine ⟨_, step_reset hp, rfl, readReg_resetBlock _, rfl, rfl, rfl, rfl, ?wf, ?idle, ?call⟩
  case wf => exact memAfterReset_wf (s := { s with pending := rest })
  case idle => exact memAfterReset_not_busy (s := { s with pending := rest })
  case call =>
    intro t hb hlaunch _ a
    have hlaunch' : Launchable t { s with pending := rest } := hlaunch
    exact ⟨hlaunch'.read_memAfterReset_untouched hb, hlaunch'.read_memAfterReset_forgotten hb⟩
end
